-- ==== Sys2Proof/Word.lean ====
section
/-! DEFINITION. The word types of CORE: bytes and 16-bit words (00_scope.md R5, R7). -/

namespace Sys2Proof

/-- An 8-bit unsigned value: A, X, Y, SP, P and every memory cell (R5, R7). -/
abbrev Byte := BitVec 8

/-- A 16-bit unsigned value: PC, addresses in range, 16-bit operands (R5, R7). -/
abbrev Word := BitVec 16

end Sys2Proof
end

