-- ==== Sys2Proof/Config.lean ====
section
/-! DEFINITION. The implementation parameters a model of CORE takes (00_scope.md R5, 93 U7 to U9). -/

namespace Sys2Proof

/-- The parameters of R5 that the spec leaves to whoever instantiates CORE. They are fixed for one machine: no step
writes them. State carries them as plain data, so that a claim about every state covers every parameter value
(DESIGN CHOICE, log 5). -/
structure Config where
  /-- `LOAD_ADDR`: OPEN parameter, the PC after construction and the first address `load` writes (R5, D5). -/
  loadAddr : Word
  /-- `STACK_BASE`: default 0x01FF, any value of the form 0xNNFF is admissible (R5, R25, D6). -/
  stackBase : Word
  /-- `TRANSFER_NZ_ALL`: whether TAX, TAY, TSX also write N and Z; default false (R5, D11). -/
  transferNZAll : Bool
  deriving DecidableEq, Repr

/-- The parameter values State.reset uses: STACK_BASE and TRANSFER_NZ_ALL at the defaults of R5; LOAD_ADDR, which R5
leaves OPEN, at the value every test vector of 95_test_vectors.md takes as its premise (DESIGN CHOICE, log 4). -/
def Config.default : Config :=
  { loadAddr := 0x8000, stackBase := 0x01FF, transferNZAll := false }

end Sys2Proof
end

