-- ==== Sys2Proof/Syntax.lean ====
section
/-! DEFINITION. The instructions of CORE as syntax: one constructor of Instr per row of the Instruction Table
(30_encoding.md R66), with its operand field, and the mnemonic, addressing mode and descriptor of each. -/

namespace Sys2Proof

/-- The 26 mnemonics of R66. -/
inductive Mnemonic where
  | lda | ldx | ldy | sta | stx | sty
  | tax | tay | txa | tya | tsx | txs
  | ora | inc | inx | iny
  | pha | php | pla | plp
  | jmp | clc | cld | cli | clv | brk
  deriving DecidableEq, Repr

/-- The eleven addressing modes of R103 to R114. -/
inductive Mode where
  | implied | immediate | zeroPage | zeroPageX | zeroPageY
  | absolute | absoluteX | absoluteY | indirect | indirectX | indirectY
  deriving DecidableEq, Repr

/-- R65: what the Instruction Table maps an opcode to, the pair (mnemonic, addressing mode). -/
structure Descriptor where
  mnemonic : Mnemonic
  mode : Mode
  deriving DecidableEq, Repr

/-- An operand form: an addressing mode with the operand field its format holds (R61, R62). -/
inductive Operand where
  | implied
  | immediate (op8 : Byte)
  | zeroPage (op8 : Byte)
  | zeroPageX (op8 : Byte)
  | zeroPageY (op8 : Byte)
  | absolute (op16 : Word)
  | absoluteX (op16 : Word)
  | absoluteY (op16 : Word)
  | indirect (op16 : Word)
  | indirectX (op8 : Byte)
  | indirectY (op8 : Byte)
  deriving DecidableEq, Repr

/-- The addressing mode of an operand form. -/
def Operand.mode : Operand → Mode
  | .implied => .implied
  | .immediate _ => .immediate
  | .zeroPage _ => .zeroPage
  | .zeroPageX _ => .zeroPageX
  | .zeroPageY _ => .zeroPageY
  | .absolute _ => .absolute
  | .absoluteX _ => .absoluteX
  | .absoluteY _ => .absoluteY
  | .indirect _ => .indirect
  | .indirectX _ => .indirectX
  | .indirectY _ => .indirectY

/-- The instructions: one constructor per row of R66, with its operand field (`op8` or `op16` of R62). -/
inductive Instr where
  /-- LDA Immediate: bytes A9 nn (R120). -/
  | ldaImmediate (op8 : Byte)
  /-- LDA ZeroPage: bytes A5 nn (R120). -/
  | ldaZeroPage (op8 : Byte)
  /-- LDA ZeroPageX: bytes B5 nn (R120). -/
  | ldaZeroPageX (op8 : Byte)
  /-- LDA Absolute: bytes AD lo hi (R120). -/
  | ldaAbsolute (op16 : Word)
  /-- LDA AbsoluteX: bytes BD lo hi (R120). -/
  | ldaAbsoluteX (op16 : Word)
  /-- LDA AbsoluteY: bytes B9 lo hi (R120). -/
  | ldaAbsoluteY (op16 : Word)
  /-- LDA IndirectX: bytes A1 nn (R120). -/
  | ldaIndirectX (op8 : Byte)
  /-- LDA IndirectY: bytes B1 nn (R120). -/
  | ldaIndirectY (op8 : Byte)
  /-- LDX Immediate: bytes A2 nn (R121). -/
  | ldxImmediate (op8 : Byte)
  /-- LDX ZeroPage: bytes A6 nn (R121). -/
  | ldxZeroPage (op8 : Byte)
  /-- LDX ZeroPageY: bytes B6 nn (R121). -/
  | ldxZeroPageY (op8 : Byte)
  /-- LDX Absolute: bytes AE lo hi (R121). -/
  | ldxAbsolute (op16 : Word)
  /-- LDX AbsoluteY: bytes BE lo hi (R121). -/
  | ldxAbsoluteY (op16 : Word)
  /-- LDY Immediate: bytes A0 nn (R122). -/
  | ldyImmediate (op8 : Byte)
  /-- LDY ZeroPage: bytes A4 nn (R122). -/
  | ldyZeroPage (op8 : Byte)
  /-- LDY ZeroPageX: bytes B4 nn (R122). -/
  | ldyZeroPageX (op8 : Byte)
  /-- LDY Absolute: bytes AC lo hi (R122). -/
  | ldyAbsolute (op16 : Word)
  /-- LDY AbsoluteX: bytes BC lo hi (R122). -/
  | ldyAbsoluteX (op16 : Word)
  /-- STA ZeroPage: bytes 85 nn (R123). -/
  | staZeroPage (op8 : Byte)
  /-- STA ZeroPageX: bytes 95 nn (R123). -/
  | staZeroPageX (op8 : Byte)
  /-- STA Absolute: bytes 8D lo hi (R123). -/
  | staAbsolute (op16 : Word)
  /-- STA AbsoluteX: bytes 9D lo hi (R123). -/
  | staAbsoluteX (op16 : Word)
  /-- STA AbsoluteY: bytes 99 lo hi (R123). -/
  | staAbsoluteY (op16 : Word)
  /-- STA IndirectX: bytes 81 nn (R123). -/
  | staIndirectX (op8 : Byte)
  /-- STA IndirectY: bytes 91 nn (R123). -/
  | staIndirectY (op8 : Byte)
  /-- STX ZeroPage: bytes 86 nn (R124). -/
  | stxZeroPage (op8 : Byte)
  /-- STX ZeroPageY: bytes 96 nn (R124). -/
  | stxZeroPageY (op8 : Byte)
  /-- STX Absolute: bytes 8E lo hi (R124). -/
  | stxAbsolute (op16 : Word)
  /-- STY ZeroPage: bytes 84 nn (R125). -/
  | styZeroPage (op8 : Byte)
  /-- STY ZeroPageX: bytes 94 nn (R125). -/
  | styZeroPageX (op8 : Byte)
  /-- STY Absolute: bytes 8C lo hi (R125). -/
  | styAbsolute (op16 : Word)
  /-- TAX Implied: bytes AA (R140). -/
  | tax
  /-- TAY Implied: bytes A8 (R141). -/
  | tay
  /-- TXA Implied: bytes 8A (R142). -/
  | txa
  /-- TYA Implied: bytes 98 (R143). -/
  | tya
  /-- TSX Implied: bytes BA (R144). -/
  | tsx
  /-- TXS Implied: bytes 9A (R145). -/
  | txs
  /-- ORA Immediate: bytes 09 nn (R150). -/
  | oraImmediate (op8 : Byte)
  /-- ORA ZeroPage: bytes 05 nn (R150). -/
  | oraZeroPage (op8 : Byte)
  /-- ORA ZeroPageX: bytes 15 nn (R150). -/
  | oraZeroPageX (op8 : Byte)
  /-- ORA Absolute: bytes 0D lo hi (R150). -/
  | oraAbsolute (op16 : Word)
  /-- ORA AbsoluteX: bytes 1D lo hi (R150). -/
  | oraAbsoluteX (op16 : Word)
  /-- ORA AbsoluteY: bytes 19 lo hi (R150). -/
  | oraAbsoluteY (op16 : Word)
  /-- ORA IndirectX: bytes 01 nn (R150). -/
  | oraIndirectX (op8 : Byte)
  /-- ORA IndirectY: bytes 11 nn (R150). -/
  | oraIndirectY (op8 : Byte)
  /-- INC ZeroPage: bytes E6 nn (R151). -/
  | incZeroPage (op8 : Byte)
  /-- INC ZeroPageX: bytes F6 nn (R151). -/
  | incZeroPageX (op8 : Byte)
  /-- INC Absolute: bytes EE lo hi (R151). -/
  | incAbsolute (op16 : Word)
  /-- INC AbsoluteX: bytes FE lo hi (R151). -/
  | incAbsoluteX (op16 : Word)
  /-- INX Implied: bytes E8 (R152). -/
  | inx
  /-- INY Implied: bytes C8 (R153). -/
  | iny
  /-- PHA Implied: bytes 48 (R160). -/
  | pha
  /-- PHP Implied: bytes 08 (R161). -/
  | php
  /-- PLA Implied: bytes 68 (R162). -/
  | pla
  /-- PLP Implied: bytes 28 (R163). -/
  | plp
  /-- JMP Absolute: bytes 4C lo hi (R170). -/
  | jmpAbsolute (op16 : Word)
  /-- JMP Indirect: bytes 6C lo hi (R171). -/
  | jmpIndirect (op16 : Word)
  /-- CLC Implied: bytes 18 (R172). -/
  | clc
  /-- CLD Implied: bytes D8 (R173). -/
  | cld
  /-- CLI Implied: bytes 58 (R174). -/
  | cli
  /-- CLV Implied: bytes B8 (R175). -/
  | clv
  /-- BRK Implied: bytes 00 (R176). -/
  | brk
  deriving DecidableEq, Repr

/-- The mnemonic of an instruction (R66). -/
def Instr.mnemonic : Instr → Mnemonic
  | .ldaImmediate _ => .lda
  | .ldaZeroPage _ => .lda
  | .ldaZeroPageX _ => .lda
  | .ldaAbsolute _ => .lda
  | .ldaAbsoluteX _ => .lda
  | .ldaAbsoluteY _ => .lda
  | .ldaIndirectX _ => .lda
  | .ldaIndirectY _ => .lda
  | .ldxImmediate _ => .ldx
  | .ldxZeroPage _ => .ldx
  | .ldxZeroPageY _ => .ldx
  | .ldxAbsolute _ => .ldx
  | .ldxAbsoluteY _ => .ldx
  | .ldyImmediate _ => .ldy
  | .ldyZeroPage _ => .ldy
  | .ldyZeroPageX _ => .ldy
  | .ldyAbsolute _ => .ldy
  | .ldyAbsoluteX _ => .ldy
  | .staZeroPage _ => .sta
  | .staZeroPageX _ => .sta
  | .staAbsolute _ => .sta
  | .staAbsoluteX _ => .sta
  | .staAbsoluteY _ => .sta
  | .staIndirectX _ => .sta
  | .staIndirectY _ => .sta
  | .stxZeroPage _ => .stx
  | .stxZeroPageY _ => .stx
  | .stxAbsolute _ => .stx
  | .styZeroPage _ => .sty
  | .styZeroPageX _ => .sty
  | .styAbsolute _ => .sty
  | .tax => .tax
  | .tay => .tay
  | .txa => .txa
  | .tya => .tya
  | .tsx => .tsx
  | .txs => .txs
  | .oraImmediate _ => .ora
  | .oraZeroPage _ => .ora
  | .oraZeroPageX _ => .ora
  | .oraAbsolute _ => .ora
  | .oraAbsoluteX _ => .ora
  | .oraAbsoluteY _ => .ora
  | .oraIndirectX _ => .ora
  | .oraIndirectY _ => .ora
  | .incZeroPage _ => .inc
  | .incZeroPageX _ => .inc
  | .incAbsolute _ => .inc
  | .incAbsoluteX _ => .inc
  | .inx => .inx
  | .iny => .iny
  | .pha => .pha
  | .php => .php
  | .pla => .pla
  | .plp => .plp
  | .jmpAbsolute _ => .jmp
  | .jmpIndirect _ => .jmp
  | .clc => .clc
  | .cld => .cld
  | .cli => .cli
  | .clv => .clv
  | .brk => .brk

/-- The operand form of an instruction: its addressing mode (R66) with its operand field. -/
def Instr.operand : Instr → Operand
  | .ldaImmediate op8 => .immediate op8
  | .ldaZeroPage op8 => .zeroPage op8
  | .ldaZeroPageX op8 => .zeroPageX op8
  | .ldaAbsolute op16 => .absolute op16
  | .ldaAbsoluteX op16 => .absoluteX op16
  | .ldaAbsoluteY op16 => .absoluteY op16
  | .ldaIndirectX op8 => .indirectX op8
  | .ldaIndirectY op8 => .indirectY op8
  | .ldxImmediate op8 => .immediate op8
  | .ldxZeroPage op8 => .zeroPage op8
  | .ldxZeroPageY op8 => .zeroPageY op8
  | .ldxAbsolute op16 => .absolute op16
  | .ldxAbsoluteY op16 => .absoluteY op16
  | .ldyImmediate op8 => .immediate op8
  | .ldyZeroPage op8 => .zeroPage op8
  | .ldyZeroPageX op8 => .zeroPageX op8
  | .ldyAbsolute op16 => .absolute op16
  | .ldyAbsoluteX op16 => .absoluteX op16
  | .staZeroPage op8 => .zeroPage op8
  | .staZeroPageX op8 => .zeroPageX op8
  | .staAbsolute op16 => .absolute op16
  | .staAbsoluteX op16 => .absoluteX op16
  | .staAbsoluteY op16 => .absoluteY op16
  | .staIndirectX op8 => .indirectX op8
  | .staIndirectY op8 => .indirectY op8
  | .stxZeroPage op8 => .zeroPage op8
  | .stxZeroPageY op8 => .zeroPageY op8
  | .stxAbsolute op16 => .absolute op16
  | .styZeroPage op8 => .zeroPage op8
  | .styZeroPageX op8 => .zeroPageX op8
  | .styAbsolute op16 => .absolute op16
  | .tax => .implied
  | .tay => .implied
  | .txa => .implied
  | .tya => .implied
  | .tsx => .implied
  | .txs => .implied
  | .oraImmediate op8 => .immediate op8
  | .oraZeroPage op8 => .zeroPage op8
  | .oraZeroPageX op8 => .zeroPageX op8
  | .oraAbsolute op16 => .absolute op16
  | .oraAbsoluteX op16 => .absoluteX op16
  | .oraAbsoluteY op16 => .absoluteY op16
  | .oraIndirectX op8 => .indirectX op8
  | .oraIndirectY op8 => .indirectY op8
  | .incZeroPage op8 => .zeroPage op8
  | .incZeroPageX op8 => .zeroPageX op8
  | .incAbsolute op16 => .absolute op16
  | .incAbsoluteX op16 => .absoluteX op16
  | .inx => .implied
  | .iny => .implied
  | .pha => .implied
  | .php => .implied
  | .pla => .implied
  | .plp => .implied
  | .jmpAbsolute op16 => .absolute op16
  | .jmpIndirect op16 => .indirect op16
  | .clc => .implied
  | .cld => .implied
  | .cli => .implied
  | .clv => .implied
  | .brk => .implied

/-- The descriptor (mnemonic, addressing mode) of an instruction (R65). -/
def Instr.descriptor (i : Instr) : Descriptor :=
  ⟨i.mnemonic, i.operand.mode⟩

end Sys2Proof
end

