-- ==== Sys2Proof/WellFormed.lean ====
section
/-! DEFINITION. The checks on syntax and parameters: which (mnemonic, mode) pairs are admitted (30_encoding.md R66,
"Per class"), and which STACK_BASE is admissible (00_scope.md R5). The check on memories is Memory.wf. -/

namespace Sys2Proof

/-- The addressing modes R66 admits for each mnemonic ("Load = LDA (8 modes), LDX (5), LDY (5); ..."). -/
def Mnemonic.modes : Mnemonic → List Mode
  | .lda => [.immediate, .zeroPage, .zeroPageX, .absolute, .absoluteX, .absoluteY, .indirectX, .indirectY]
  | .ldx => [.immediate, .zeroPage, .zeroPageY, .absolute, .absoluteY]
  | .ldy => [.immediate, .zeroPage, .zeroPageX, .absolute, .absoluteX]
  | .sta => [.zeroPage, .zeroPageX, .absolute, .absoluteX, .absoluteY, .indirectX, .indirectY]
  | .stx => [.zeroPage, .zeroPageY, .absolute]
  | .sty => [.zeroPage, .zeroPageX, .absolute]
  | .tax => [.implied]
  | .tay => [.implied]
  | .txa => [.implied]
  | .tya => [.implied]
  | .tsx => [.implied]
  | .txs => [.implied]
  | .ora => [.immediate, .zeroPage, .zeroPageX, .absolute, .absoluteX, .absoluteY, .indirectX, .indirectY]
  | .inc => [.zeroPage, .zeroPageX, .absolute, .absoluteX]
  | .inx => [.implied]
  | .iny => [.implied]
  | .pha => [.implied]
  | .php => [.implied]
  | .pla => [.implied]
  | .plp => [.implied]
  | .jmp => [.absolute, .indirect]
  | .clc => [.implied]
  | .cld => [.implied]
  | .cli => [.implied]
  | .clv => [.implied]
  | .brk => [.implied]

/-- R65, R66: the pair (mnemonic, mode) is a row of the Instruction Table. There is no Immediate store, for example. -/
def Descriptor.admitted (d : Descriptor) : Bool :=
  d.mnemonic.modes.contains d.mode

/-- An instruction is well formed when its descriptor is admitted. Nothing is asked of its operand field: R68, "any
value 0x00 to 0xFF is legal in byte 1 or byte 2". -/
def Instr.wellFormed (i : Instr) : Bool :=
  i.descriptor.admitted

/-- R5: `STACK_BASE` has the form 0xNNFF, the only form for which base - SP stays in one aligned page (D6). -/
def Config.wellFormed (c : Config) : Bool :=
  c.stackBase.toNat % 256 == 255

end Sys2Proof
end

