-- ==== Sys2Proof/Decode.lean ====
section
/-! DEFINITION. Decode and encode: byte order of 16-bit operands, instruction lengths, the Instruction Table, the
decoder (total on any bytes, rejecting by name) and the encoder (30_encoding.md R60 to R69). -/

namespace Sys2Proof

/-- R44, R63: the 16-bit value of two bytes, `hi * 256 + lo`. -/
def joinBytes (hi lo : Byte) : Word :=
  BitVec.ofNat 16 (hi.toNat * 256 + lo.toNat)

/-- R62: the `lo` field, bits 7:0 of a 16-bit operand. -/
def lowByte (w : Word) : Byte :=
  BitVec.ofNat 8 w.toNat

/-- R62: the `hi` field, bits 15:8 of a 16-bit operand. -/
def highByte (w : Word) : Byte :=
  BitVec.ofNat 8 (w.toNat / 256)

/-- R61: how many operand bytes a mode consumes. -/
def Mode.operandBytes : Mode → Nat
  | .implied => 0
  | .immediate | .zeroPage | .zeroPageX | .zeroPageY | .indirectX | .indirectY => 1
  | .absolute | .absoluteX | .absoluteY | .indirect => 2

/-- R61: an instruction's length is 1 plus the operand bytes of its mode. -/
def Mode.length (m : Mode) : Nat :=
  1 + m.operandBytes

/-- The length of an instruction with this operand form. -/
def Operand.length (o : Operand) : Nat :=
  o.mode.length

/-- The length of an instruction in bytes (R61). -/
def Instr.length (i : Instr) : Nat :=
  i.operand.length

/-- R66, class Load: LDA (8), LDX (5), LDY (5). -/
def loadRows : List (Byte × Descriptor) :=
  [ (0xA9, ⟨.lda, .immediate⟩),
    (0xA5, ⟨.lda, .zeroPage⟩),
    (0xB5, ⟨.lda, .zeroPageX⟩),
    (0xAD, ⟨.lda, .absolute⟩),
    (0xBD, ⟨.lda, .absoluteX⟩),
    (0xB9, ⟨.lda, .absoluteY⟩),
    (0xA1, ⟨.lda, .indirectX⟩),
    (0xB1, ⟨.lda, .indirectY⟩),
    (0xA2, ⟨.ldx, .immediate⟩),
    (0xA6, ⟨.ldx, .zeroPage⟩),
    (0xB6, ⟨.ldx, .zeroPageY⟩),
    (0xAE, ⟨.ldx, .absolute⟩),
    (0xBE, ⟨.ldx, .absoluteY⟩),
    (0xA0, ⟨.ldy, .immediate⟩),
    (0xA4, ⟨.ldy, .zeroPage⟩),
    (0xB4, ⟨.ldy, .zeroPageX⟩),
    (0xAC, ⟨.ldy, .absolute⟩),
    (0xBC, ⟨.ldy, .absoluteX⟩) ]

/-- R66, class Store: STA (7), STX (3), STY (3). -/
def storeRows : List (Byte × Descriptor) :=
  [ (0x85, ⟨.sta, .zeroPage⟩),
    (0x95, ⟨.sta, .zeroPageX⟩),
    (0x8D, ⟨.sta, .absolute⟩),
    (0x9D, ⟨.sta, .absoluteX⟩),
    (0x99, ⟨.sta, .absoluteY⟩),
    (0x81, ⟨.sta, .indirectX⟩),
    (0x91, ⟨.sta, .indirectY⟩),
    (0x86, ⟨.stx, .zeroPage⟩),
    (0x96, ⟨.stx, .zeroPageY⟩),
    (0x8E, ⟨.stx, .absolute⟩),
    (0x84, ⟨.sty, .zeroPage⟩),
    (0x94, ⟨.sty, .zeroPageX⟩),
    (0x8C, ⟨.sty, .absolute⟩) ]

/-- R66, class Transfer (6). -/
def transferRows : List (Byte × Descriptor) :=
  [ (0xAA, ⟨.tax, .implied⟩),
    (0xA8, ⟨.tay, .implied⟩),
    (0x8A, ⟨.txa, .implied⟩),
    (0x98, ⟨.tya, .implied⟩),
    (0xBA, ⟨.tsx, .implied⟩),
    (0x9A, ⟨.txs, .implied⟩) ]

/-- R66, class Logical OR: ORA (8). -/
def orRows : List (Byte × Descriptor) :=
  [ (0x09, ⟨.ora, .immediate⟩),
    (0x05, ⟨.ora, .zeroPage⟩),
    (0x15, ⟨.ora, .zeroPageX⟩),
    (0x0D, ⟨.ora, .absolute⟩),
    (0x1D, ⟨.ora, .absoluteX⟩),
    (0x19, ⟨.ora, .absoluteY⟩),
    (0x01, ⟨.ora, .indirectX⟩),
    (0x11, ⟨.ora, .indirectY⟩) ]

/-- R66, class Increment: INC (4), INX, INY. -/
def incrementRows : List (Byte × Descriptor) :=
  [ (0xE6, ⟨.inc, .zeroPage⟩),
    (0xF6, ⟨.inc, .zeroPageX⟩),
    (0xEE, ⟨.inc, .absolute⟩),
    (0xFE, ⟨.inc, .absoluteX⟩),
    (0xE8, ⟨.inx, .implied⟩),
    (0xC8, ⟨.iny, .implied⟩) ]

/-- R66, class Stack push and pull (4). -/
def stackRows : List (Byte × Descriptor) :=
  [ (0x48, ⟨.pha, .implied⟩),
    (0x08, ⟨.php, .implied⟩),
    (0x68, ⟨.pla, .implied⟩),
    (0x28, ⟨.plp, .implied⟩) ]

/-- R66, class Jump (2), clear-flag (4), halt (1). -/
def controlRows : List (Byte × Descriptor) :=
  [ (0x4C, ⟨.jmp, .absolute⟩),
    (0x6C, ⟨.jmp, .indirect⟩),
    (0x18, ⟨.clc, .implied⟩),
    (0xD8, ⟨.cld, .implied⟩),
    (0x58, ⟨.cli, .implied⟩),
    (0xB8, ⟨.clv, .implied⟩),
    (0x00, ⟨.brk, .implied⟩) ]

/-- R66: the Instruction Table, exactly 62 rows; a byte in no row is absent (R68). -/
def instructionTable : List (Byte × Descriptor) :=
  loadRows ++ storeRows ++ transferRows ++ orRows ++ incrementRows ++ stackRows ++ controlRows

/-- R64: `lookup(opcode)`, by the whole opcode byte only. -/
def lookup (opcode : Byte) : Option Descriptor :=
  instructionTable.lookup opcode

/-- The instruction of a descriptor with operand bytes `lo` (byte 1) and `hi` (byte 2) (R62, R63); bytes that the
mode does not have are not looked at. None for a pair that is no row of R66. -/
def build (d : Descriptor) (lo hi : Byte) : Option Instr :=
  match d.mnemonic with
  | .lda =>
    match d.mode with
    | .immediate => some (.ldaImmediate lo)
    | .zeroPage => some (.ldaZeroPage lo)
    | .zeroPageX => some (.ldaZeroPageX lo)
    | .absolute => some (.ldaAbsolute (joinBytes hi lo))
    | .absoluteX => some (.ldaAbsoluteX (joinBytes hi lo))
    | .absoluteY => some (.ldaAbsoluteY (joinBytes hi lo))
    | .indirectX => some (.ldaIndirectX lo)
    | .indirectY => some (.ldaIndirectY lo)
    | _ => none
  | .ldx =>
    match d.mode with
    | .immediate => some (.ldxImmediate lo)
    | .zeroPage => some (.ldxZeroPage lo)
    | .zeroPageY => some (.ldxZeroPageY lo)
    | .absolute => some (.ldxAbsolute (joinBytes hi lo))
    | .absoluteY => some (.ldxAbsoluteY (joinBytes hi lo))
    | _ => none
  | .ldy =>
    match d.mode with
    | .immediate => some (.ldyImmediate lo)
    | .zeroPage => some (.ldyZeroPage lo)
    | .zeroPageX => some (.ldyZeroPageX lo)
    | .absolute => some (.ldyAbsolute (joinBytes hi lo))
    | .absoluteX => some (.ldyAbsoluteX (joinBytes hi lo))
    | _ => none
  | .sta =>
    match d.mode with
    | .zeroPage => some (.staZeroPage lo)
    | .zeroPageX => some (.staZeroPageX lo)
    | .absolute => some (.staAbsolute (joinBytes hi lo))
    | .absoluteX => some (.staAbsoluteX (joinBytes hi lo))
    | .absoluteY => some (.staAbsoluteY (joinBytes hi lo))
    | .indirectX => some (.staIndirectX lo)
    | .indirectY => some (.staIndirectY lo)
    | _ => none
  | .stx =>
    match d.mode with
    | .zeroPage => some (.stxZeroPage lo)
    | .zeroPageY => some (.stxZeroPageY lo)
    | .absolute => some (.stxAbsolute (joinBytes hi lo))
    | _ => none
  | .sty =>
    match d.mode with
    | .zeroPage => some (.styZeroPage lo)
    | .zeroPageX => some (.styZeroPageX lo)
    | .absolute => some (.styAbsolute (joinBytes hi lo))
    | _ => none
  | .tax =>
    match d.mode with
    | .implied => some .tax
    | _ => none
  | .tay =>
    match d.mode with
    | .implied => some .tay
    | _ => none
  | .txa =>
    match d.mode with
    | .implied => some .txa
    | _ => none
  | .tya =>
    match d.mode with
    | .implied => some .tya
    | _ => none
  | .tsx =>
    match d.mode with
    | .implied => some .tsx
    | _ => none
  | .txs =>
    match d.mode with
    | .implied => some .txs
    | _ => none
  | .ora =>
    match d.mode with
    | .immediate => some (.oraImmediate lo)
    | .zeroPage => some (.oraZeroPage lo)
    | .zeroPageX => some (.oraZeroPageX lo)
    | .absolute => some (.oraAbsolute (joinBytes hi lo))
    | .absoluteX => some (.oraAbsoluteX (joinBytes hi lo))
    | .absoluteY => some (.oraAbsoluteY (joinBytes hi lo))
    | .indirectX => some (.oraIndirectX lo)
    | .indirectY => some (.oraIndirectY lo)
    | _ => none
  | .inc =>
    match d.mode with
    | .zeroPage => some (.incZeroPage lo)
    | .zeroPageX => some (.incZeroPageX lo)
    | .absolute => some (.incAbsolute (joinBytes hi lo))
    | .absoluteX => some (.incAbsoluteX (joinBytes hi lo))
    | _ => none
  | .inx =>
    match d.mode with
    | .implied => some .inx
    | _ => none
  | .iny =>
    match d.mode with
    | .implied => some .iny
    | _ => none
  | .pha =>
    match d.mode with
    | .implied => some .pha
    | _ => none
  | .php =>
    match d.mode with
    | .implied => some .php
    | _ => none
  | .pla =>
    match d.mode with
    | .implied => some .pla
    | _ => none
  | .plp =>
    match d.mode with
    | .implied => some .plp
    | _ => none
  | .jmp =>
    match d.mode with
    | .absolute => some (.jmpAbsolute (joinBytes hi lo))
    | .indirect => some (.jmpIndirect (joinBytes hi lo))
    | _ => none
  | .clc =>
    match d.mode with
    | .implied => some .clc
    | _ => none
  | .cld =>
    match d.mode with
    | .implied => some .cld
    | _ => none
  | .cli =>
    match d.mode with
    | .implied => some .cli
    | _ => none
  | .clv =>
    match d.mode with
    | .implied => some .clv
    | _ => none
  | .brk =>
    match d.mode with
    | .implied => some .brk
    | _ => none

/-- Why bytes decode to no instruction. -/
inductive DecodeError where
  /-- R68, R83: the opcode byte is absent from the Instruction Table. -/
  | unknownOpcode (opcode : Byte)
  /-- The bytes given end before the instruction does; a fetch never gives such bytes (log 8). -/
  | truncated
  deriving DecidableEq, Repr

/-- The operand bytes (lo, hi) of an instruction with `n` of them, and the bytes after them; an absent byte is 0. -/
def takeOperands : Nat → List Byte → Option (Byte × Byte × List Byte)
  | 0, rest => some (0, 0, rest)
  | 1, lo :: rest => some (lo, 0, rest)
  | 2, lo :: hi :: rest => some (lo, hi, rest)
  | _, _ => none

/-- R64, R69: decode the instruction at the head of `bytes`, and the bytes after it. The opcode alone gives the
descriptor, and the descriptor's mode the number of operand bytes. -/
def decode (bytes : List Byte) : Except DecodeError (Instr × List Byte) :=
  match bytes with
  | [] => .error .truncated
  | opcode :: rest =>
    match lookup opcode with
    | none => .error (.unknownOpcode opcode)
    | some d =>
      match takeOperands d.mode.operandBytes rest with
      | none => .error .truncated
      | some (lo, hi, after) =>
        match build d lo hi with
        | none => .error (.unknownOpcode opcode)
        | some i => .ok (i, after)

/-- The opcode byte of an instruction, as the grid of R67 places it. -/
def Instr.opcode : Instr → Byte
  | .ldaImmediate _ => 0xA9
  | .ldaZeroPage _ => 0xA5
  | .ldaZeroPageX _ => 0xB5
  | .ldaAbsolute _ => 0xAD
  | .ldaAbsoluteX _ => 0xBD
  | .ldaAbsoluteY _ => 0xB9
  | .ldaIndirectX _ => 0xA1
  | .ldaIndirectY _ => 0xB1
  | .ldxImmediate _ => 0xA2
  | .ldxZeroPage _ => 0xA6
  | .ldxZeroPageY _ => 0xB6
  | .ldxAbsolute _ => 0xAE
  | .ldxAbsoluteY _ => 0xBE
  | .ldyImmediate _ => 0xA0
  | .ldyZeroPage _ => 0xA4
  | .ldyZeroPageX _ => 0xB4
  | .ldyAbsolute _ => 0xAC
  | .ldyAbsoluteX _ => 0xBC
  | .staZeroPage _ => 0x85
  | .staZeroPageX _ => 0x95
  | .staAbsolute _ => 0x8D
  | .staAbsoluteX _ => 0x9D
  | .staAbsoluteY _ => 0x99
  | .staIndirectX _ => 0x81
  | .staIndirectY _ => 0x91
  | .stxZeroPage _ => 0x86
  | .stxZeroPageY _ => 0x96
  | .stxAbsolute _ => 0x8E
  | .styZeroPage _ => 0x84
  | .styZeroPageX _ => 0x94
  | .styAbsolute _ => 0x8C
  | .tax => 0xAA
  | .tay => 0xA8
  | .txa => 0x8A
  | .tya => 0x98
  | .tsx => 0xBA
  | .txs => 0x9A
  | .oraImmediate _ => 0x09
  | .oraZeroPage _ => 0x05
  | .oraZeroPageX _ => 0x15
  | .oraAbsolute _ => 0x0D
  | .oraAbsoluteX _ => 0x1D
  | .oraAbsoluteY _ => 0x19
  | .oraIndirectX _ => 0x01
  | .oraIndirectY _ => 0x11
  | .incZeroPage _ => 0xE6
  | .incZeroPageX _ => 0xF6
  | .incAbsolute _ => 0xEE
  | .incAbsoluteX _ => 0xFE
  | .inx => 0xE8
  | .iny => 0xC8
  | .pha => 0x48
  | .php => 0x08
  | .pla => 0x68
  | .plp => 0x28
  | .jmpAbsolute _ => 0x4C
  | .jmpIndirect _ => 0x6C
  | .clc => 0x18
  | .cld => 0xD8
  | .cli => 0x58
  | .clv => 0xB8
  | .brk => 0x00

/-- The operand bytes of an operand form in memory order, low byte first (R62). -/
def Operand.bytes : Operand → List Byte
  | .implied => []
  | .immediate b | .zeroPage b | .zeroPageX b | .zeroPageY b | .indirectX b | .indirectY b => [b]
  | .absolute w | .absoluteX w | .absoluteY w | .indirect w => [lowByte w, highByte w]

/-- R60, R62: the bytes of an instruction, lowest address first. -/
def encode (i : Instr) : List Byte :=
  i.opcode :: i.operand.bytes

/-- The three bytes that spec/opcode_table.json's numbering gives a word of `nbits` bits: bit 0 is the least
significant bit of byte 0, and every bit from `nbits` on is 0. -/
def tableBytes (nbits w : Nat) : List Byte :=
  let v := w % 2 ^ nbits
  [BitVec.ofNat 8 v, BitVec.ofNat 8 (v / 256), BitVec.ofNat 8 (v / 65536)]

/-- The instruction the decoder reads from a word in spec/opcode_table.json's numbering. -/
def decodeTableWord (nbits w : Nat) : Option Instr :=
  match decode (tableBytes nbits w) with
  | .ok (i, _) => some i
  | .error _ => none

end Sys2Proof
end

