-- ==== Sys2Proof/Machine/State.lean ====
section
/-! DEFINITION. The state of CORE (10_state.md R20 to R32) as plain data, construction and reset (70 R230), and the
reasons a step can stop. -/

namespace Sys2Proof.Machine

/-- R20, R40: memory, a list of (address, byte) pairs. The canonical form is Memory.wf (log 9): addresses strictly
rising, below 65536, and no entry equal to what an unlisted address reads as. -/
abbrev Memory := List Host.Cell

/-- R26: the eight conditions of the status register P, named as R26 lists them. -/
inductive Flag where
  | negative | overflow | unused | breakFlag | decimal | interruptDisable | zero | carry
  deriving DecidableEq, Repr

/-- R32, R200: the two errors a step can raise, with what each records. -/
inductive EngineError where
  /-- R201: the opcode byte fetched is absent from the Instruction Table. -/
  | unknownOpcode (opcode : Byte)
  /-- R202: the exact, unreduced address that exceeds 0xFFFF. -/
  | addressOutOfRange (address : Nat)
  deriving DecidableEq, Repr

/-- R32: the engine status. -/
inductive Status where
  | running
  | halted
  | error (e : EngineError)
  deriving DecidableEq, Repr

/-- R203: the error of the host's `load`; it records the requested range (`LOAD_ADDR`, n). -/
inductive LoadError where
  | loadOverflow (loadAddr : Word) (count : Nat)
  deriving DecidableEq, Repr

/-- R20: the state of CORE; `config` is the model's own field (log 5). -/
structure State where
  /-- R24: the address of the next byte to fetch. -/
  pc : Word
  /-- R25: the stack pointer. -/
  sp : Byte
  /-- R21: the accumulator. -/
  a : Byte
  /-- R22: the first index register. -/
  x : Byte
  /-- R23: the second index register. -/
  y : Byte
  /-- R26: the status flags; read and written through readP and writeP only, which hold bit 5 at 1 (R28, log 10). -/
  p : Byte
  /-- R40: the 64 KiB of memory. -/
  mem : Memory
  /-- R32: the engine status. -/
  status : Status
  /-- R5: the implementation parameters, which no step writes (the model's own field, log 5). -/
  config : Config
  deriving DecidableEq, Repr

/-- Why a step stops without a next state. -/
inductive Fault where
  /-- Machine/Step.lean raises it if the decoder asks for more bytes than the fetch read. The fetch reads as many bytes
  as the opcode's mode has (Machine/Fetch.lean), so no step answers it (log 8). Safe: it could only stop a run. -/
  | fetchTruncated
  deriving DecidableEq, Repr

/-- Why an instruction has no meaning. -/
inductive Refusal where
  /-- An arm of exec whose instruction has no meaning yet; no arm answers it. Safe: it could only stop a run. -/
  | notModelled (mnemonic : String)
  deriving DecidableEq, Repr

/-- R20, R230, D18: the draws of one construction, the values the spec leaves unspecified. -/
structure Launch where
  a : Byte
  x : Byte
  y : Byte
  sp : Byte
  /-- The draw of P; its bit 5 is not used (bit 5 is 1, R28). -/
  p : Byte
  mem : Memory
  deriving DecidableEq, Repr

/-- R230: `construct()`, for given parameters and draws. -/
def State.construct (c : Config) (l : Launch) : State where
  pc := c.loadAddr
  sp := l.sp
  a := l.a
  x := l.x
  y := l.y
  p := l.p ||| 0x20
  mem := l.mem
  status := .running
  config := c

/-- The draws State.reset takes: every register 0 (DESIGN CHOICE, log 1 and 2), memory with nothing listed (log 3). -/
def Launch.zero : Launch :=
  { a := 0, x := 0, y := 0, sp := 0, p := 0, mem := [] }

/-- The machine right after construction (R230), with the default parameters and the draws of Launch.zero. -/
def State.reset : State :=
  State.construct Config.default Launch.zero

end Sys2Proof.Machine
end

