-- ==== Sys2Proof/Machine/Memory.lean ====
section
/-! DEFINITION. Memory as data: what an unlisted address reads as, the canonical form, and reading and writing one
byte (20_memory.md R40, R41, R42). -/

namespace Sys2Proof.Machine

/-- What an address that no entry lists reads as (DESIGN CHOICE, unsafe, log 3; R40 gives memory no reset value). -/
def unlistedByte : Byte := 0

/-- The entries' addresses are at least `lo`, strictly rising and below 65536, and no entry is `unlistedByte`. -/
def Memory.wfFrom : Nat → Memory → Bool
  | _, [] => true
  | lo, (addr, v) :: rest =>
    decide (lo ≤ addr) && decide (addr < 65536) && (v != unlistedByte) && Memory.wfFrom (addr + 1) rest

/-- The canonical form of memory (log 9), in which equal memories are equal lists. -/
def Memory.wf (m : Memory) : Bool :=
  Memory.wfFrom 0 m

/-- The byte at an address (R40). -/
def Memory.read : Memory → Nat → Byte
  | [], _ => unlistedByte
  | (b, v) :: rest, addr => if addr = b then v else Memory.read rest addr

/-- Memory with no entry for an address. -/
def Memory.erase : Memory → Nat → Memory
  | [], _ => []
  | (b, v) :: rest, addr =>
    if addr = b then Memory.erase rest addr else (b, v) :: Memory.erase rest addr

/-- Memory with one entry for an address, in rising order. -/
def Memory.insert : Memory → Nat → Byte → Memory
  | [], addr, new => [(addr, new)]
  | (b, v) :: rest, addr, new =>
    if addr < b then (addr, new) :: (b, v) :: rest
    else if addr = b then (addr, new) :: rest
    else (b, v) :: Memory.insert rest addr new

/-- Memory with one byte changed (R42); writing `unlistedByte` removes the entry, which keeps the canonical form. -/
def Memory.write (m : Memory) (addr : Nat) (new : Byte) : Memory :=
  if new = unlistedByte then Memory.erase m addr else Memory.insert m addr new

end Sys2Proof.Machine
end

