-- ==== Sys2Proof/Machine/Ops.lean ====
section
/-! DEFINITION. The named operations over memory, registers and status: every read and write of CORE's state goes
through these (10_state.md, 20_memory.md, 60_exceptions.md R205). -/

namespace Sys2Proof.Machine

/-- R7: `zext_16(b)`. -/
def zext16 (b : Byte) : Word :=
  b.setWidth 16

/-- R41 at an address in range: the byte at a 16-bit address. -/
def State.readByte (addr : Word) (s : State) : Byte :=
  Memory.read s.mem addr.toNat

/-- R42 at an address in range: one byte changed. -/
def State.writeByte (addr : Word) (v : Byte) (s : State) : State :=
  { s with mem := Memory.write s.mem addr.toNat v }

/-- R101, R202: an exact address as a 16-bit one, or AddressOutOfRange with the exact address. -/
def checkedAddress (addr : Nat) : Except EngineError Word :=
  if addr > 0xFFFF then .error (.addressOutOfRange addr) else .ok (BitVec.ofNat 16 addr)

/-- R41: `MemRead(addr, 1)`. -/
def State.memRead (addr : Nat) (s : State) : Except EngineError Byte :=
  match checkedAddress addr with
  | .error e => .error e
  | .ok ea => .ok (s.readByte ea)

/-- R42: `MemWrite(addr, 1, v)`. -/
def State.memWrite (addr : Nat) (v : Byte) (s : State) : Except EngineError State :=
  match checkedAddress addr with
  | .error e => .error e
  | .ok ea => .ok (s.writeByte ea v)

/-- R21: `A <- v`. -/
def State.writeA (v : Byte) (s : State) : State := { s with a := v }

/-- R22: `X <- v`. -/
def State.writeX (v : Byte) (s : State) : State := { s with x := v }

/-- R23: `Y <- v`. -/
def State.writeY (v : Byte) (s : State) : State := { s with y := v }

/-- R25: `SP <- v`. -/
def State.writeSP (v : Byte) (s : State) : State := { s with sp := v }

/-- R24: `PC <- target`. -/
def State.writePC (target : Word) (s : State) : State := { s with pc := target }

/-- R24, R82, R100: PC moved on by `n` bytes, modulo 65536. -/
def State.advance (n : Nat) (s : State) : State := s.writePC (s.pc + BitVec.ofNat 16 n)

/-- R28: the bit of P that always reads 1. -/
def alwaysOneMask : Byte := 0x20

/-- R26, R28: `P` as read; bit 5 reads 1. -/
def State.readP (s : State) : Byte := s.p ||| alwaysOneMask

/-- R26, R28: `P <- v`; bit 5 stays 1. -/
def State.writeP (v : Byte) (s : State) : State := { s with p := v ||| alwaysOneMask }

/-- R25: the address of stack slot `slot`, `STACK_BASE - zext_16(slot)` (a 16-bit subtraction, log 15). -/
def State.stackAddr (slot : Byte) (s : State) : Word :=
  s.config.stackBase - zext16 slot

/-- R160, R161: write a byte to the slot SP names, then decrement SP (modulo 256). -/
def State.push (v : Byte) (s : State) : State :=
  (s.writeByte (s.stackAddr s.sp) v).writeSP (s.sp - 1)

/-- R162, R163: increment SP (modulo 256). -/
def State.popSP (s : State) : State := s.writeSP (s.sp + 1)

/-- R162, R163: the byte in the slot that SP names. -/
def State.stackTop (s : State) : Byte := s.readByte (s.stackAddr s.sp)

/-- R8, R80: `halt`. -/
def State.halt (s : State) : State := { s with status := .halted }

/-- R205: the error outcome of the step of the instruction at `s.pc`, `s` being the state before the step: PC moves
past the opcode byte, the status records the error, and nothing else changes. There is no return from it (R207). -/
def State.raiseError (e : EngineError) (s : State) : State :=
  { s with pc := s.pc + 1, status := .error e }

/-- R204: the numeric code of an error of a step. -/
def EngineError.code : EngineError → Nat
  | .unknownOpcode _ => 1
  | .addressOutOfRange _ => 2

/-- R204: the numeric code of an error of `load`. -/
def LoadError.code : LoadError → Nat
  | .loadOverflow _ _ => 3

/-- R204: the code a status stands for; 0 is no error. -/
def Status.code : Status → Nat
  | .running => 0
  | .halted => 0
  | .error e => e.code

end Sys2Proof.Machine
end

