-- ==== Sys2Proof/Machine/Flags.lean ====
section
/-! DEFINITION. The status flags: bit positions, reading and writing one flag, and the zero/negative rule
(10_state.md R26 to R30, 40_execution_engine.md R86). -/

namespace Sys2Proof.Machine

/-- R26: the bit of P that holds a flag. -/
def Flag.bit : Flag → Nat
  | .negative => 7
  | .overflow => 6
  | .unused => 5
  | .breakFlag => 4
  | .decimal => 3
  | .interruptDisable => 2
  | .zero => 1
  | .carry => 0

/-- R26: one flag of a status byte. -/
def getFlag (f : Flag) (p : Byte) : Bool :=
  p.getLsbD f.bit

/-- R8: a status byte with one flag written. -/
def putFlag (f : Flag) (b : Bool) (p : Byte) : Byte :=
  if b then p ||| BitVec.twoPow 8 f.bit else p &&& ~~~BitVec.twoPow 8 f.bit

/-- R8: `P.F`, one flag of P as read. -/
def State.flag (f : Flag) (s : State) : Bool :=
  getFlag f s.readP

/-- R8: `P.F <- b`; writing the unused flag changes nothing (R28). -/
def State.setFlag (f : Flag) (b : Bool) (s : State) : State :=
  s.writeP (putFlag f b s.readP)

/-- R172 to R175: one flag forced to 0. -/
def State.clearFlag (f : Flag) (s : State) : State :=
  s.setFlag f false

/-- R86: `computeZeroAndNegative(v)`, the pair (zero, negative). -/
def computeZeroAndNegative (v : Byte) : Bool × Bool :=
  (v == 0, v.getLsbD 7)

/-- R86: `setNZ(v)`. -/
def State.setNZ (v : Byte) (s : State) : State :=
  (s.setFlag .zero (computeZeroAndNegative v).1).setFlag .negative (computeZeroAndNegative v).2

/-- R140, R141, R144: `if TRANSFER_NZ_ALL: setNZ(v)`. -/
def State.setNZIfTransferAll (v : Byte) (s : State) : State :=
  if s.config.transferNZAll then s.setNZ v else s

end Sys2Proof.Machine
end

