-- ==== Sys2Proof/Machine/Operands.lean ====
section
/-! DEFINITION. The Addressing Resolver, every operand form (41_addressing_modes.md R100 to R115), and the shared
shapes of an instruction: an operand resolved, PC moved past the instruction, the effect applied, or the error
outcome (40_execution_engine.md R81, 60_exceptions.md R205). -/

namespace Sys2Proof.Machine

/-- R112: `readZpPtr(z)`; the second byte comes from `(z + 1) mod 256`. -/
def readZpPtr (z : Byte) (s : State) : Word :=
  joinBytes (s.readByte (zext16 (z + 1))) (s.readByte (zext16 z))

/-- R111: the 16-bit address stored at pointer `p`; its second byte is at the exact sum `p + 1`. -/
def readPointer (p : Word) (s : State) : Except EngineError Word :=
  match s.memRead p.toNat with
  | .error e => .error e
  | .ok lo =>
    match s.memRead (p.toNat + 1) with
    | .error e => .error e
    | .ok hi => .ok (joinBytes hi lo)

/-- R100: `resolve(mode)`, the 16-bit operand `ea` of an operand form, or the error it raises. Registers and memory
are those before the step; the operand bytes are already in the form. -/
def resolve (o : Operand) (s : State) : Except EngineError Word :=
  match o with
  | .implied => .ok 0
  | .immediate v => .ok (zext16 v)
  | .zeroPage z => .ok (zext16 z)
  | .zeroPageX z => .ok (zext16 (z + s.x))
  | .zeroPageY z => .ok (zext16 (z + s.y))
  | .absolute base => .ok base
  | .absoluteX base => checkedAddress (base.toNat + s.x.toNat)
  | .absoluteY base => checkedAddress (base.toNat + s.y.toNat)
  | .indirect p => readPointer p s
  | .indirectX z => .ok (readZpPtr (z + s.x) s)
  | .indirectY z => checkedAddress ((readZpPtr z s).toNat + s.y.toNat)

/-- R120 to R122, R150: the data byte of an operand, `ea[7:0]` if Immediate and `MemRead(ea, 1)` if not. -/
def operandData (o : Operand) (s : State) : Except EngineError Byte :=
  match resolve o s with
  | .error e => .error e
  | .ok ea => .ok (if o.mode = .immediate then lowByte ea else s.readByte ea)

/-- An instruction that uses its operand as an address: R81's resolve, then the effect on the state with PC past the
instruction, or the error outcome of R205. -/
def withAddress (o : Operand) (effect : Word → State → State) (s : State) : Host.Outcome State Fault Refusal :=
  match resolve o s with
  | .error e => .next (s.raiseError e)
  | .ok ea => .next (effect ea (s.advance o.length))

/-- An instruction that uses its operand's data byte. -/
def withData (o : Operand) (effect : Byte → State → State) (s : State) : Host.Outcome State Fault Refusal :=
  match operandData o s with
  | .error e => .next (s.raiseError e)
  | .ok v => .next (effect v (s.advance o.length))

/-- An Implied instruction (R103): it ignores its operand and cannot raise. -/
def implied (effect : State → State) (s : State) : Host.Outcome State Fault Refusal :=
  .next (effect (s.advance Operand.implied.length))

end Sys2Proof.Machine
end

