-- ==== Sys2Proof/Machine/Control.lean ====
section
/-! DEFINITION. Jumps, clear-flag instructions and halt: JMP, CLC, CLD, CLI, CLV, BRK (46_control_and_flags.md). -/

namespace Sys2Proof.Machine

/-- R170, R171: `PC <- ea`; the sequential PC is discarded. -/
def jump (ea : Word) (s : State) : State := s.writePC ea

/-- JMP Absolute, opcode 4C (R170). -/
def execJmpAbsolute (op16 : Word) (s : State) : Host.Outcome State Fault Refusal :=
  withAddress (.absolute op16) jump s

/-- JMP Indirect, opcode 6C (R171). -/
def execJmpIndirect (op16 : Word) (s : State) : Host.Outcome State Fault Refusal :=
  withAddress (.indirect op16) jump s

/-- CLC Implied, opcode 18 (R172). -/
def execClc (s : State) : Host.Outcome State Fault Refusal :=
  implied (State.clearFlag .carry) s

/-- CLD Implied, opcode D8 (R173). -/
def execCld (s : State) : Host.Outcome State Fault Refusal :=
  implied (State.clearFlag .decimal) s

/-- CLI Implied, opcode 58 (R174). -/
def execCli (s : State) : Host.Outcome State Fault Refusal :=
  implied (State.clearFlag .interruptDisable) s

/-- CLV Implied, opcode B8 (R175). -/
def execClv (s : State) : Host.Outcome State Fault Refusal :=
  implied (State.clearFlag .overflow) s

/-- BRK Implied, opcode 00 (R176). -/
def execBrk (s : State) : Host.Outcome State Fault Refusal :=
  implied State.halt s

end Sys2Proof.Machine
end

