-- ==== Sys2Proof/Machine/LoadStore.lean ====
section
/-! DEFINITION. Loads and stores: LDA, LDX, LDY, STA, STX, STY (42_load_store.md R120 to R125). Every meaning of
the machine takes the state BEFORE the fetch, with PC at the opcode byte (log 11). -/

namespace Sys2Proof.Machine

/-- R120: `A <- v; setNZ(v)`. -/
def loadA (v : Byte) (s : State) : State := (s.writeA v).setNZ v

/-- R121: `X <- v; setNZ(v)`. -/
def loadX (v : Byte) (s : State) : State := (s.writeX v).setNZ v

/-- R122: `Y <- v; setNZ(v)`. -/
def loadY (v : Byte) (s : State) : State := (s.writeY v).setNZ v

/-- R123: `MemWrite(ea, 1, A)`, `ea` being in range (R101). -/
def storeA (ea : Word) (s : State) : State := s.writeByte ea s.a

/-- R124: `MemWrite(ea, 1, X)`. -/
def storeX (ea : Word) (s : State) : State := s.writeByte ea s.x

/-- R125: `MemWrite(ea, 1, Y)`. -/
def storeY (ea : Word) (s : State) : State := s.writeByte ea s.y

/-- LDA Immediate, opcode A9 (R120). -/
def execLdaImmediate (op8 : Byte) (s : State) : Host.Outcome State Fault Refusal :=
  withData (.immediate op8) loadA s

/-- LDA ZeroPage, opcode A5 (R120). -/
def execLdaZeroPage (op8 : Byte) (s : State) : Host.Outcome State Fault Refusal :=
  withData (.zeroPage op8) loadA s

/-- LDA ZeroPageX, opcode B5 (R120). -/
def execLdaZeroPageX (op8 : Byte) (s : State) : Host.Outcome State Fault Refusal :=
  withData (.zeroPageX op8) loadA s

/-- LDA Absolute, opcode AD (R120). -/
def execLdaAbsolute (op16 : Word) (s : State) : Host.Outcome State Fault Refusal :=
  withData (.absolute op16) loadA s

/-- LDA AbsoluteX, opcode BD (R120). -/
def execLdaAbsoluteX (op16 : Word) (s : State) : Host.Outcome State Fault Refusal :=
  withData (.absoluteX op16) loadA s

/-- LDA AbsoluteY, opcode B9 (R120). -/
def execLdaAbsoluteY (op16 : Word) (s : State) : Host.Outcome State Fault Refusal :=
  withData (.absoluteY op16) loadA s

/-- LDA IndirectX, opcode A1 (R120). -/
def execLdaIndirectX (op8 : Byte) (s : State) : Host.Outcome State Fault Refusal :=
  withData (.indirectX op8) loadA s

/-- LDA IndirectY, opcode B1 (R120). -/
def execLdaIndirectY (op8 : Byte) (s : State) : Host.Outcome State Fault Refusal :=
  withData (.indirectY op8) loadA s

/-- LDX Immediate, opcode A2 (R121). -/
def execLdxImmediate (op8 : Byte) (s : State) : Host.Outcome State Fault Refusal :=
  withData (.immediate op8) loadX s

/-- LDX ZeroPage, opcode A6 (R121). -/
def execLdxZeroPage (op8 : Byte) (s : State) : Host.Outcome State Fault Refusal :=
  withData (.zeroPage op8) loadX s

/-- LDX ZeroPageY, opcode B6 (R121). -/
def execLdxZeroPageY (op8 : Byte) (s : State) : Host.Outcome State Fault Refusal :=
  withData (.zeroPageY op8) loadX s

/-- LDX Absolute, opcode AE (R121). -/
def execLdxAbsolute (op16 : Word) (s : State) : Host.Outcome State Fault Refusal :=
  withData (.absolute op16) loadX s

/-- LDX AbsoluteY, opcode BE (R121). -/
def execLdxAbsoluteY (op16 : Word) (s : State) : Host.Outcome State Fault Refusal :=
  withData (.absoluteY op16) loadX s

/-- LDY Immediate, opcode A0 (R122). -/
def execLdyImmediate (op8 : Byte) (s : State) : Host.Outcome State Fault Refusal :=
  withData (.immediate op8) loadY s

/-- LDY ZeroPage, opcode A4 (R122). -/
def execLdyZeroPage (op8 : Byte) (s : State) : Host.Outcome State Fault Refusal :=
  withData (.zeroPage op8) loadY s

/-- LDY ZeroPageX, opcode B4 (R122). -/
def execLdyZeroPageX (op8 : Byte) (s : State) : Host.Outcome State Fault Refusal :=
  withData (.zeroPageX op8) loadY s

/-- LDY Absolute, opcode AC (R122). -/
def execLdyAbsolute (op16 : Word) (s : State) : Host.Outcome State Fault Refusal :=
  withData (.absolute op16) loadY s

/-- LDY AbsoluteX, opcode BC (R122). -/
def execLdyAbsoluteX (op16 : Word) (s : State) : Host.Outcome State Fault Refusal :=
  withData (.absoluteX op16) loadY s

/-- STA ZeroPage, opcode 85 (R123). -/
def execStaZeroPage (op8 : Byte) (s : State) : Host.Outcome State Fault Refusal :=
  withAddress (.zeroPage op8) storeA s

/-- STA ZeroPageX, opcode 95 (R123). -/
def execStaZeroPageX (op8 : Byte) (s : State) : Host.Outcome State Fault Refusal :=
  withAddress (.zeroPageX op8) storeA s

/-- STA Absolute, opcode 8D (R123). -/
def execStaAbsolute (op16 : Word) (s : State) : Host.Outcome State Fault Refusal :=
  withAddress (.absolute op16) storeA s

/-- STA AbsoluteX, opcode 9D (R123). -/
def execStaAbsoluteX (op16 : Word) (s : State) : Host.Outcome State Fault Refusal :=
  withAddress (.absoluteX op16) storeA s

/-- STA AbsoluteY, opcode 99 (R123). -/
def execStaAbsoluteY (op16 : Word) (s : State) : Host.Outcome State Fault Refusal :=
  withAddress (.absoluteY op16) storeA s

/-- STA IndirectX, opcode 81 (R123). -/
def execStaIndirectX (op8 : Byte) (s : State) : Host.Outcome State Fault Refusal :=
  withAddress (.indirectX op8) storeA s

/-- STA IndirectY, opcode 91 (R123). -/
def execStaIndirectY (op8 : Byte) (s : State) : Host.Outcome State Fault Refusal :=
  withAddress (.indirectY op8) storeA s

/-- STX ZeroPage, opcode 86 (R124). -/
def execStxZeroPage (op8 : Byte) (s : State) : Host.Outcome State Fault Refusal :=
  withAddress (.zeroPage op8) storeX s

/-- STX ZeroPageY, opcode 96 (R124). -/
def execStxZeroPageY (op8 : Byte) (s : State) : Host.Outcome State Fault Refusal :=
  withAddress (.zeroPageY op8) storeX s

/-- STX Absolute, opcode 8E (R124). -/
def execStxAbsolute (op16 : Word) (s : State) : Host.Outcome State Fault Refusal :=
  withAddress (.absolute op16) storeX s

/-- STY ZeroPage, opcode 84 (R125). -/
def execStyZeroPage (op8 : Byte) (s : State) : Host.Outcome State Fault Refusal :=
  withAddress (.zeroPage op8) storeY s

/-- STY ZeroPageX, opcode 94 (R125). -/
def execStyZeroPageX (op8 : Byte) (s : State) : Host.Outcome State Fault Refusal :=
  withAddress (.zeroPageX op8) storeY s

/-- STY Absolute, opcode 8C (R125). -/
def execStyAbsolute (op16 : Word) (s : State) : Host.Outcome State Fault Refusal :=
  withAddress (.absolute op16) storeY s

end Sys2Proof.Machine
end

