-- ==== Sys2Proof/Machine/Logical.lean ====
section
/-! DEFINITION. Logical OR and increment: ORA, INC, INX, INY (44_logical_increment.md R150 to R153). -/

namespace Sys2Proof.Machine

/-- R150: `r <- A | m; A <- r; setNZ(r)`. -/
def orA (m : Byte) (s : State) : State := (s.writeA (s.a ||| m)).setNZ (s.a ||| m)

/-- R151: `v <- MemRead(ea, 1); r <- v +8 1; MemWrite(ea, 1, r); setNZ(r)`. -/
def incrementByte (ea : Word) (s : State) : State :=
  (s.writeByte ea (s.readByte ea + 1)).setNZ (s.readByte ea + 1)

/-- R152: `X <- X +8 1; setNZ(X)`. -/
def incrementX (s : State) : State := (s.writeX (s.x + 1)).setNZ (s.x + 1)

/-- R153: `Y <- Y +8 1; setNZ(Y)`. -/
def incrementY (s : State) : State := (s.writeY (s.y + 1)).setNZ (s.y + 1)

/-- ORA Immediate, opcode 09 (R150). -/
def execOraImmediate (op8 : Byte) (s : State) : Host.Outcome State Fault Refusal :=
  withData (.immediate op8) orA s

/-- ORA ZeroPage, opcode 05 (R150). -/
def execOraZeroPage (op8 : Byte) (s : State) : Host.Outcome State Fault Refusal :=
  withData (.zeroPage op8) orA s

/-- ORA ZeroPageX, opcode 15 (R150). -/
def execOraZeroPageX (op8 : Byte) (s : State) : Host.Outcome State Fault Refusal :=
  withData (.zeroPageX op8) orA s

/-- ORA Absolute, opcode 0D (R150). -/
def execOraAbsolute (op16 : Word) (s : State) : Host.Outcome State Fault Refusal :=
  withData (.absolute op16) orA s

/-- ORA AbsoluteX, opcode 1D (R150). -/
def execOraAbsoluteX (op16 : Word) (s : State) : Host.Outcome State Fault Refusal :=
  withData (.absoluteX op16) orA s

/-- ORA AbsoluteY, opcode 19 (R150). -/
def execOraAbsoluteY (op16 : Word) (s : State) : Host.Outcome State Fault Refusal :=
  withData (.absoluteY op16) orA s

/-- ORA IndirectX, opcode 01 (R150). -/
def execOraIndirectX (op8 : Byte) (s : State) : Host.Outcome State Fault Refusal :=
  withData (.indirectX op8) orA s

/-- ORA IndirectY, opcode 11 (R150). -/
def execOraIndirectY (op8 : Byte) (s : State) : Host.Outcome State Fault Refusal :=
  withData (.indirectY op8) orA s

/-- INC ZeroPage, opcode E6 (R151). -/
def execIncZeroPage (op8 : Byte) (s : State) : Host.Outcome State Fault Refusal :=
  withAddress (.zeroPage op8) incrementByte s

/-- INC ZeroPageX, opcode F6 (R151). -/
def execIncZeroPageX (op8 : Byte) (s : State) : Host.Outcome State Fault Refusal :=
  withAddress (.zeroPageX op8) incrementByte s

/-- INC Absolute, opcode EE (R151). -/
def execIncAbsolute (op16 : Word) (s : State) : Host.Outcome State Fault Refusal :=
  withAddress (.absolute op16) incrementByte s

/-- INC AbsoluteX, opcode FE (R151). -/
def execIncAbsoluteX (op16 : Word) (s : State) : Host.Outcome State Fault Refusal :=
  withAddress (.absoluteX op16) incrementByte s

/-- INX Implied, opcode E8 (R152). -/
def execInx (s : State) : Host.Outcome State Fault Refusal :=
  implied incrementX s

/-- INY Implied, opcode C8 (R153). -/
def execIny (s : State) : Host.Outcome State Fault Refusal :=
  implied incrementY s

end Sys2Proof.Machine
end

