-- ==== Sys2Proof/Machine/Stack.lean ====
section
/-! DEFINITION. Stack push and pull: PHA, PHP, PLA, PLP (45_stack.md R160 to R163). -/

namespace Sys2Proof.Machine

/-- R160: push A. -/
def pushA (s : State) : State := s.push s.a

/-- R161: push P as held, bit 5 being 1. -/
def pushP (s : State) : State := s.push s.readP

/-- R162: pull A, then `setNZ(A)`. -/
def pullA (s : State) : State := (s.popSP.writeA s.popSP.stackTop).setNZ s.popSP.stackTop

/-- R163: pull P, bit 5 staying 1. -/
def pullP (s : State) : State := s.popSP.writeP s.popSP.stackTop

/-- PHA Implied, opcode 48 (R160). -/
def execPha (s : State) : Host.Outcome State Fault Refusal :=
  implied pushA s

/-- PHP Implied, opcode 08 (R161). -/
def execPhp (s : State) : Host.Outcome State Fault Refusal :=
  implied pushP s

/-- PLA Implied, opcode 68 (R162). -/
def execPla (s : State) : Host.Outcome State Fault Refusal :=
  implied pullA s

/-- PLP Implied, opcode 28 (R163). -/
def execPlp (s : State) : Host.Outcome State Fault Refusal :=
  implied pullP s

end Sys2Proof.Machine
end

