-- ==== Sys2Proof/Machine/Transfer.lean ====
section
/-! DEFINITION. Register transfers: TAX, TAY, TXA, TYA, TSX, TXS (43_register_transfer.md R140 to R145). -/

namespace Sys2Proof.Machine

/-- R140: `X <- A; if TRANSFER_NZ_ALL: setNZ(X)`. -/
def transferAX (s : State) : State := (s.writeX s.a).setNZIfTransferAll s.a

/-- R141: `Y <- A; if TRANSFER_NZ_ALL: setNZ(Y)`. -/
def transferAY (s : State) : State := (s.writeY s.a).setNZIfTransferAll s.a

/-- R142: `A <- X; setNZ(A)`. -/
def transferXA (s : State) : State := (s.writeA s.x).setNZ s.x

/-- R143: `A <- Y; setNZ(A)`. -/
def transferYA (s : State) : State := (s.writeA s.y).setNZ s.y

/-- R144: `X <- SP; if TRANSFER_NZ_ALL: setNZ(X)`. -/
def transferSX (s : State) : State := (s.writeX s.sp).setNZIfTransferAll s.sp

/-- R145: `SP <- X`, no flag for either value of the parameter. -/
def transferXS (s : State) : State := s.writeSP s.x

/-- TAX Implied, opcode AA (R140). -/
def execTax (s : State) : Host.Outcome State Fault Refusal :=
  implied transferAX s

/-- TAY Implied, opcode A8 (R141). -/
def execTay (s : State) : Host.Outcome State Fault Refusal :=
  implied transferAY s

/-- TXA Implied, opcode 8A (R142). -/
def execTxa (s : State) : Host.Outcome State Fault Refusal :=
  implied transferXA s

/-- TYA Implied, opcode 98 (R143). -/
def execTya (s : State) : Host.Outcome State Fault Refusal :=
  implied transferYA s

/-- TSX Implied, opcode BA (R144). -/
def execTsx (s : State) : Host.Outcome State Fault Refusal :=
  implied transferSX s

/-- TXS Implied, opcode 9A (R145). -/
def execTxs (s : State) : Host.Outcome State Fault Refusal :=
  implied transferXS s

end Sys2Proof.Machine
end

