-- ==== Sys2Proof/Machine/Dispatch.lean ====
section
/-! DEFINITION. R85: the dispatch, a total match over the instructions with no default arm. -/

namespace Sys2Proof.Machine

-- The state given is the one before the fetch, with PC at the opcode byte; its status is not looked at (log 11).
def exec (i : Instr) (s : State) : Host.Outcome State Fault Refusal :=
  match i with
  | .ldaImmediate op8 => Sys2Proof.Machine.execLdaImmediate op8 s
  | .ldaZeroPage op8 => Sys2Proof.Machine.execLdaZeroPage op8 s
  | .ldaZeroPageX op8 => Sys2Proof.Machine.execLdaZeroPageX op8 s
  | .ldaAbsolute op16 => Sys2Proof.Machine.execLdaAbsolute op16 s
  | .ldaAbsoluteX op16 => Sys2Proof.Machine.execLdaAbsoluteX op16 s
  | .ldaAbsoluteY op16 => Sys2Proof.Machine.execLdaAbsoluteY op16 s
  | .ldaIndirectX op8 => Sys2Proof.Machine.execLdaIndirectX op8 s
  | .ldaIndirectY op8 => Sys2Proof.Machine.execLdaIndirectY op8 s
  | .ldxImmediate op8 => Sys2Proof.Machine.execLdxImmediate op8 s
  | .ldxZeroPage op8 => Sys2Proof.Machine.execLdxZeroPage op8 s
  | .ldxZeroPageY op8 => Sys2Proof.Machine.execLdxZeroPageY op8 s
  | .ldxAbsolute op16 => Sys2Proof.Machine.execLdxAbsolute op16 s
  | .ldxAbsoluteY op16 => Sys2Proof.Machine.execLdxAbsoluteY op16 s
  | .ldyImmediate op8 => Sys2Proof.Machine.execLdyImmediate op8 s
  | .ldyZeroPage op8 => Sys2Proof.Machine.execLdyZeroPage op8 s
  | .ldyZeroPageX op8 => Sys2Proof.Machine.execLdyZeroPageX op8 s
  | .ldyAbsolute op16 => Sys2Proof.Machine.execLdyAbsolute op16 s
  | .ldyAbsoluteX op16 => Sys2Proof.Machine.execLdyAbsoluteX op16 s
  | .staZeroPage op8 => Sys2Proof.Machine.execStaZeroPage op8 s
  | .staZeroPageX op8 => Sys2Proof.Machine.execStaZeroPageX op8 s
  | .staAbsolute op16 => Sys2Proof.Machine.execStaAbsolute op16 s
  | .staAbsoluteX op16 => Sys2Proof.Machine.execStaAbsoluteX op16 s
  | .staAbsoluteY op16 => Sys2Proof.Machine.execStaAbsoluteY op16 s
  | .staIndirectX op8 => Sys2Proof.Machine.execStaIndirectX op8 s
  | .staIndirectY op8 => Sys2Proof.Machine.execStaIndirectY op8 s
  | .stxZeroPage op8 => Sys2Proof.Machine.execStxZeroPage op8 s
  | .stxZeroPageY op8 => Sys2Proof.Machine.execStxZeroPageY op8 s
  | .stxAbsolute op16 => Sys2Proof.Machine.execStxAbsolute op16 s
  | .styZeroPage op8 => Sys2Proof.Machine.execStyZeroPage op8 s
  | .styZeroPageX op8 => Sys2Proof.Machine.execStyZeroPageX op8 s
  | .styAbsolute op16 => Sys2Proof.Machine.execStyAbsolute op16 s
  | .tax => Sys2Proof.Machine.execTax s
  | .tay => Sys2Proof.Machine.execTay s
  | .txa => Sys2Proof.Machine.execTxa s
  | .tya => Sys2Proof.Machine.execTya s
  | .tsx => Sys2Proof.Machine.execTsx s
  | .txs => Sys2Proof.Machine.execTxs s
  | .oraImmediate op8 => Sys2Proof.Machine.execOraImmediate op8 s
  | .oraZeroPage op8 => Sys2Proof.Machine.execOraZeroPage op8 s
  | .oraZeroPageX op8 => Sys2Proof.Machine.execOraZeroPageX op8 s
  | .oraAbsolute op16 => Sys2Proof.Machine.execOraAbsolute op16 s
  | .oraAbsoluteX op16 => Sys2Proof.Machine.execOraAbsoluteX op16 s
  | .oraAbsoluteY op16 => Sys2Proof.Machine.execOraAbsoluteY op16 s
  | .oraIndirectX op8 => Sys2Proof.Machine.execOraIndirectX op8 s
  | .oraIndirectY op8 => Sys2Proof.Machine.execOraIndirectY op8 s
  | .incZeroPage op8 => Sys2Proof.Machine.execIncZeroPage op8 s
  | .incZeroPageX op8 => Sys2Proof.Machine.execIncZeroPageX op8 s
  | .incAbsolute op16 => Sys2Proof.Machine.execIncAbsolute op16 s
  | .incAbsoluteX op16 => Sys2Proof.Machine.execIncAbsoluteX op16 s
  | .inx => Sys2Proof.Machine.execInx s
  | .iny => Sys2Proof.Machine.execIny s
  | .pha => Sys2Proof.Machine.execPha s
  | .php => Sys2Proof.Machine.execPhp s
  | .pla => Sys2Proof.Machine.execPla s
  | .plp => Sys2Proof.Machine.execPlp s
  | .jmpAbsolute op16 => Sys2Proof.Machine.execJmpAbsolute op16 s
  | .jmpIndirect op16 => Sys2Proof.Machine.execJmpIndirect op16 s
  | .clc => Sys2Proof.Machine.execClc s
  | .cld => Sys2Proof.Machine.execCld s
  | .cli => Sys2Proof.Machine.execCli s
  | .clv => Sys2Proof.Machine.execClv s
  | .brk => Sys2Proof.Machine.execBrk s

end Sys2Proof.Machine
end

