-- ==== Sys2Proof/Machine/Fetch.lean ====
section
/-! DEFINITION. Fetching an instruction's bytes at PC (40_execution_engine.md R82, 41_addressing_modes.md R102). -/

namespace Sys2Proof.Machine

/-- R102: `n` bytes from an address on, byte k at `(addr + k) mod 65536`. -/
def State.readBytes : Nat → Word → State → List Byte
  | 0, _, _ => []
  | n + 1, addr, s => s.readByte addr :: State.readBytes n (addr + 1) s

/-- R82: the opcode byte, `MemRead(PC, 1)`. -/
def State.opcodeAtPC (s : State) : Byte := s.readByte s.pc

/-- R61, R69: how many bytes an opcode asks for; an absent one has no operand byte read (R83). -/
def fetchLength (opcode : Byte) : Nat :=
  match lookup opcode with
  | none => 1
  | some d => d.mode.length

/-- The bytes of the instruction at PC, opcode first. -/
def State.fetchBytes (s : State) : List Byte :=
  State.readBytes (fetchLength s.opcodeAtPC) s.pc s

/-- Bytes stored from an address on, byte k at `(addr + k) mod 65536`. -/
def State.storeBytes : List Byte → Word → State → State
  | [], _, s => s
  | b :: rest, addr, s => State.storeBytes rest (addr + 1) (s.writeByte addr b)

end Sys2Proof.Machine
end

