-- ==== Sys2Proof/Machine/Step.lean ====
section
/-! DEFINITION. One step of the Execution Engine (40_execution_engine.md R80, R81). -/

namespace Sys2Proof.Machine

/-- R81: while Running, one step executes exactly one instruction: fetch, decode, resolve and execute (the last two
are exec's). A byte absent from the table takes the error outcome (R83, R201). In Halted and Error no step is taken:
the state stays as it is (R80, D17, U16; log 7). -/
def step (s : State) : Host.Outcome State Fault Refusal :=
  match s.status with
  | .running =>
    match decode s.fetchBytes with
    | .ok (i, _) => exec i s
    | .error (.unknownOpcode opcode) => .next (s.raiseError (.unknownOpcode opcode))
    | .error .truncated => .fault .fetchTruncated
  | .halted => .next s
  | .error _ => .next s

/-- The state with an instruction, in spec/opcode_table.json's numbering, stored at PC on a Running engine: what `load`
does for a program at LOAD_ADDR (R236), for one instruction at PC (log 12). -/
def State.withFetchWord (s : State) (nbits w : Nat) : State :=
  { State.storeBytes (tableBytes nbits w) s.pc s with status := .running }

end Sys2Proof.Machine
end

