-- ==== Sys2Proof/Machine/HostInterface.lean ====
section
/-! DEFINITION. What the host can do to CORE: load a program image and run (70_reset_and_hazards.md R236, R237);
construct is State.construct. -/

namespace Sys2Proof.Machine

/-- R236: `load(bytes)`. On overflow nothing is written and the error records the requested range (R203). -/
def State.load (bytes : List Byte) (s : State) : Except LoadError State :=
  if s.config.loadAddr.toNat + bytes.length > 0x10000 then
    .error (.loadOverflow s.config.loadAddr bytes.length)
  else
    .ok (State.storeBytes bytes s.config.loadAddr s)

/-- The state after one step; where a step answered no next state it would stay (none does so). -/
def stepState (s : State) : State :=
  match step s with
  | .next t => t
  | .fault _ => s
  | .refused _ => s

/-- `n` steps; a stopped engine stays as it is (R80). -/
def steps : Nat → State → State
  | 0, s => s
  | n + 1, s => steps n (stepState s)

/-- R237, R88: `run()` called in `s` returns the terminal state `t`: some number of steps reaches `t`, and `t` is
Halted or in Error. No `t` exists when the run does not end (R89). -/
def runsTo (s t : State) : Prop :=
  ∃ n, steps n s = t ∧ t.status ≠ .running

end Sys2Proof.Machine
end

