-- ==== Sys2Proof/Machine/Pseudocode.lean ====
section
/-! DEFINITION. The spec's own step, line by line: the pseudocode of 40_execution_engine.md R81, 41_addressing_modes.md
R102 to R114 and the instruction rules of files 42 to 46, with its order of reads, PC moved by each fetched byte, and
exact addresses as natural numbers. It is a second reading of the spec, not used by step: a statement says that step
does the same (Obligations.StepMatchesPseudocode). -/

namespace Sys2Proof.Machine

/-- A piece of pseudocode: it reads and changes the state in order, or raises (R8). -/
abbrev Pseudo (α : Type) := StateT State (Except EngineError) α

/-- R8: `raise E(info)`. -/
def pseudoRaise {α : Type} (e : EngineError) : Pseudo α := throw e

/-- R41. -/
def pseudoRead (addr : Nat) : Pseudo Byte := do
  if addr > 0xFFFF then pseudoRaise (.addressOutOfRange addr)
  let s ← get
  return Memory.read s.mem addr

/-- R42. -/
def pseudoWrite (addr : Nat) (v : Byte) : Pseudo Unit := do
  if addr > 0xFFFF then pseudoRaise (.addressOutOfRange addr)
  modify fun s => { s with mem := Memory.write s.mem addr v }

/-- R102: `fetch8()`. -/
def pseudoFetch8 : Pseudo Byte := do
  let s ← get
  let b ← pseudoRead s.pc.toNat
  modify fun s => { s with pc := s.pc + 1 }
  return b

/-- R102: `fetch16()`, `hi * 256 + lo`. -/
def pseudoFetch16 : Pseudo Nat := do
  let lo ← pseudoFetch8
  let hi ← pseudoFetch8
  return hi.toNat * 256 + lo.toNat

/-- R112: `readZpPtr(z)`. -/
def pseudoReadZpPtr (z : Nat) : Pseudo Nat := do
  let lo ← pseudoRead z
  let hi ← pseudoRead ((z + 1) % 256)
  return hi.toNat * 256 + lo.toNat

/-- R109, R110, R114: an exact sum, which raises above 0xFFFF. -/
def pseudoIndexed (base : Nat) (index : Byte) : Pseudo Nat := do
  let sum := base + index.toNat
  if sum > 0xFFFF then pseudoRaise (.addressOutOfRange sum)
  return sum

/-- R103 to R114: `resolve(mode)`. -/
def pseudoResolve (mode : Mode) : Pseudo Nat := do
  match mode with
  | .implied => return 0
  | .immediate => return (← pseudoFetch8).toNat
  | .zeroPage => return (← pseudoFetch8).toNat
  | .zeroPageX => do
    let z ← pseudoFetch8
    return (z.toNat + (← get).x.toNat) % 256
  | .zeroPageY => do
    let z ← pseudoFetch8
    return (z.toNat + (← get).y.toNat) % 256
  | .absolute => pseudoFetch16
  | .absoluteX => do
    let base ← pseudoFetch16
    pseudoIndexed base (← get).x
  | .absoluteY => do
    let base ← pseudoFetch16
    pseudoIndexed base (← get).y
  | .indirect => do
    let p ← pseudoFetch16
    let lo ← pseudoRead p
    if p + 1 > 0xFFFF then pseudoRaise (.addressOutOfRange (p + 1))
    let hi ← pseudoRead (p + 1)
    return hi.toNat * 256 + lo.toNat
  | .indirectX => do
    let z ← pseudoFetch8
    pseudoReadZpPtr ((z.toNat + (← get).x.toNat) % 256)
  | .indirectY => do
    let z ← pseudoFetch8
    let base ← pseudoReadZpPtr z.toNat
    pseudoIndexed base (← get).y

/-- R86: `setNZ(v)`. -/
def pseudoSetNZ (v : Byte) : Pseudo Unit := do
  modify fun s => s.setFlag .zero (v == 0)
  modify fun s => s.setFlag .negative (v.getLsbD 7)

/-- R120, R150: `ea[7:0]` if the mode is Immediate, `MemRead(ea, 1)` if not. -/
def pseudoOperand (mode : Mode) (ea : Nat) : Pseudo Byte := do
  if mode = .immediate then return BitVec.ofNat 8 ea
  pseudoRead ea

/-- R25: `stackAddr(SP)`. -/
def pseudoStackAddr : Pseudo Nat := do
  let s ← get
  return (s.stackAddr s.sp).toNat

/-- R120 to R176: `execute(mnemonic, mode, ea)`. -/
def pseudoExecute (mnemonic : Mnemonic) (mode : Mode) (ea : Nat) : Pseudo Unit := do
  match mnemonic with
  | .lda => do
    let v ← pseudoOperand mode ea
    modify fun s => { s with a := v }
    pseudoSetNZ v
  | .ldx => do
    let v ← pseudoOperand mode ea
    modify fun s => { s with x := v }
    pseudoSetNZ v
  | .ldy => do
    let v ← pseudoOperand mode ea
    modify fun s => { s with y := v }
    pseudoSetNZ v
  | .sta => pseudoWrite ea (← get).a
  | .stx => pseudoWrite ea (← get).x
  | .sty => pseudoWrite ea (← get).y
  | .tax => do
    modify fun s => { s with x := s.a }
    if (← get).config.transferNZAll then pseudoSetNZ (← get).x
  | .tay => do
    modify fun s => { s with y := s.a }
    if (← get).config.transferNZAll then pseudoSetNZ (← get).y
  | .txa => do
    modify fun s => { s with a := s.x }
    pseudoSetNZ (← get).a
  | .tya => do
    modify fun s => { s with a := s.y }
    pseudoSetNZ (← get).a
  | .tsx => do
    modify fun s => { s with x := s.sp }
    if (← get).config.transferNZAll then pseudoSetNZ (← get).x
  | .txs => modify fun s => { s with sp := s.x }
  | .ora => do
    let m ← pseudoOperand mode ea
    let r := (← get).a ||| m
    modify fun s => { s with a := r }
    pseudoSetNZ r
  | .inc => do
    let v ← pseudoRead ea
    let r := v + 1
    pseudoWrite ea r
    pseudoSetNZ r
  | .inx => do
    modify fun s => { s with x := s.x + 1 }
    pseudoSetNZ (← get).x
  | .iny => do
    modify fun s => { s with y := s.y + 1 }
    pseudoSetNZ (← get).y
  | .pha => do
    pseudoWrite (← pseudoStackAddr) (← get).a
    modify fun s => { s with sp := s.sp - 1 }
  | .php => do
    pseudoWrite (← pseudoStackAddr) (← get).readP
    modify fun s => { s with sp := s.sp - 1 }
  | .pla => do
    modify fun s => { s with sp := s.sp + 1 }
    let v ← pseudoRead (← pseudoStackAddr)
    modify fun s => { s with a := v }
    pseudoSetNZ v
  | .plp => do
    modify fun s => { s with sp := s.sp + 1 }
    let v ← pseudoRead (← pseudoStackAddr)
    modify fun s => { s with p := v ||| 0x20 }
  | .jmp => modify fun s => { s with pc := BitVec.ofNat 16 ea }
  | .clc => modify fun s => s.setFlag .carry false
  | .cld => modify fun s => s.setFlag .decimal false
  | .cli => modify fun s => s.setFlag .interruptDisable false
  | .clv => modify fun s => s.setFlag .overflow false
  | .brk => modify fun s => { s with status := .halted }

/-- R81: the body of `step()`. -/
def pseudoStepBody : Pseudo Unit := do
  let opcode ← pseudoFetch8
  match lookup opcode with
  | none => pseudoRaise (.unknownOpcode opcode)
  | some d => do
    let ea ← pseudoResolve d.mode
    pseudoExecute d.mnemonic d.mode ea

/-- R81, R205: `step()` on a Running engine. On a raise nothing is committed, `PC <- opAddr +16 1` and the status
records the error. -/
def pseudoStep (s : State) : State :=
  match pseudoStepBody.run s with
  | .ok (_, t) => t
  | .error e => { s with pc := s.pc + 1, status := .error e }

end Sys2Proof.Machine
end

