-- ==== Sys2Proof/Safety.lean ====
section
/-! DEFINITION. The terms the statements use: what a step leaves unchanged, what flags show of a value, which bytes a
store changes, the invariant, and what counts as a safe run. -/

namespace Sys2Proof.Machine

/-- The parts of CORE's state a statement can name as changed; PC is spoken of apart. -/
inductive Part where
  | a | x | y | sp | mem | status
  | flag (f : Flag)
  deriving DecidableEq, Repr

/-- Everything but PC and the parts listed is in `t` as in `s`: registers, each flag, every byte of memory, the engine
status and the parameters. -/
structure SameExcept (changed : List Part) (s t : State) : Prop where
  a : Part.a ∉ changed → t.a = s.a
  x : Part.x ∉ changed → t.x = s.x
  y : Part.y ∉ changed → t.y = s.y
  sp : Part.sp ∉ changed → t.sp = s.sp
  flag : ∀ f, Part.flag f ∉ changed → t.flag f = s.flag f
  mem : Part.mem ∉ changed → t.mem = s.mem
  status : Part.status ∉ changed → t.status = s.status
  config : t.config = s.config

/-- R86: N and Z of `t` are those of the value `v`. -/
def ShowsNZ (v : Byte) (t : State) : Prop :=
  (t.flag .zero = true ↔ v = 0) ∧ (t.flag .negative = true ↔ v.getLsbD 7 = true)

/-- The byte at `ea` is `v` in `t`, and every other byte of memory is in `t` as in `s`. -/
def WritesOnly (ea : Word) (v : Byte) (s t : State) : Prop :=
  t.readByte ea = v ∧ ∀ b : Word, b ≠ ea → t.readByte b = s.readByte b

/-- R24: the PC of `t` is past the instruction `i` that starts at the PC of `s`, modulo 65536. -/
def PCPast (i : Instr) (s t : State) : Prop :=
  t.pc.toNat = (s.pc.toNat + i.length) % 65536

/-- R120, R150: `v` is the data of operand `o`: the immediate byte itself, or the byte MemRead gives at the address the
operand resolves to. -/
def DataIs (o : Operand) (s : State) (v : Byte) : Prop :=
  o = .immediate v ∨
    (o.mode ≠ .immediate ∧ ∃ ea, resolve o s = .ok ea ∧ s.memRead ea.toNat = .ok v)

/-- The bytes at PC (three of them, at addresses modulo 65536) decode to `i`. -/
def Fetches (s : State) (i : Instr) : Prop :=
  ∃ rest, decode [s.readByte s.pc, s.readByte (s.pc + 1), s.readByte (s.pc + 2)] = .ok (i, rest)

/-- R205: the error outcome of a step that starts in `s`. -/
def errorOutcome (e : EngineError) (s : State) : State :=
  { s with pc := s.pc + 1, status := .error e }

/-- R43: the one address an instruction writes: the resolved address of a store or INC, the stack slot of a push. -/
def storeAddress (i : Instr) (s : State) : Option Word :=
  match i.mnemonic with
  | .sta | .stx | .sty | .inc =>
    match resolve i.operand s with
    | .ok ea => some ea
    | .error _ => none
  | .pha | .php => some (s.stackAddr s.sp)
  | .lda | .ldx | .ldy | .tax | .tay | .txa | .tya | .tsx | .txs | .ora | .inx | .iny
  | .pla | .plp | .jmp | .clc | .cld | .cli | .clv | .brk => none

/-- R123 to R125, R151, R160, R161: the value an instruction writes at its store address; none where it has none. -/
def storeValue (i : Instr) (s : State) : Option Byte :=
  match i.mnemonic with
  | .sta | .pha => some s.a
  | .stx => some s.x
  | .sty => some s.y
  | .php => some s.readP
  | .inc => (storeAddress i s).map fun ea => s.readByte ea + 1
  | .lda | .ldx | .ldy | .tax | .tay | .txa | .tya | .tsx | .txs | .ora | .inx | .iny
  | .pla | .plp | .jmp | .clc | .cld | .cli | .clv | .brk => none

/-- R26, R27, R29, R30: the mnemonics that may change a flag; `all` is `TRANSFER_NZ_ALL`. -/
def flagWriters (all : Bool) : Flag → List Mnemonic
  | .negative | .zero =>
    [.lda, .ldx, .ldy, .txa, .tya, .ora, .inc, .inx, .iny, .pla, .plp] ++
      (if all then [.tax, .tay, .tsx] else [])
  | .overflow => [.clv, .plp]
  | .unused => []
  | .breakFlag => [.plp]
  | .decimal => [.cld, .plp]
  | .interruptDisable => [.cli, .plp]
  | .carry => [.clc, .plp]

/-- R201, R202: what the status can record. -/
def Status.legal : Status → Prop
  | .running => True
  | .halted => True
  | .error (.unknownOpcode opcode) => lookup opcode = none
  | .error (.addressOutOfRange n) => 0x10000 ≤ n ∧ n ≤ 0x100FE

/-- The invariant of CORE: memory in canonical form, bit 5 of P held at 1 (R28), a status that R201 and R202 allow,
and an admissible STACK_BASE (R5). -/
structure Inv (s : State) : Prop where
  mem : Memory.wf s.mem = true
  bit5 : s.p.getLsbD 5 = true
  status : s.status.legal
  stackBase : s.config.wellFormed = true

/-- A safe run: no error outcome is ever reached from `s`. -/
def Safe (s : State) : Prop :=
  ∀ n e, (steps n s).status ≠ .error e

end Sys2Proof.Machine
end

