-- ==== Sys2Proof/Certificates/Slice0/Obligations.lean ====
section
/-! DEFINITION. The statements for the provers, in the order of OBLIGATIONS.json. Each docstring names the spec's rule
or sentence; where a clause rests on a decision the spec marks as its own, or on the model's choice, it says so. -/

open Sys2Proof Sys2Proof.Machine

/-! ## Construction and invariant -/

/-- R20, R230 (draws: the spec's decision D18, log 1, 2, 3; `PC = LOAD_ADDR`: D19): for every choice of parameters and
draws, construction leaves PC at LOAD_ADDR, status Running, bit 5 of P at 1, and every other value as drawn. -/
def Obligations.ConstructionLeavesDraws : Prop :=
  ∀ (c : Config) (l : Launch),
    let s := State.construct c l
    s.pc = c.loadAddr ∧ s.status = .running ∧ s.flag .unused = true ∧
      (∀ f, f ≠ .unused → s.flag f = getFlag f l.p) ∧
      s.a = l.a ∧ s.x = l.x ∧ s.y = l.y ∧ s.sp = l.sp ∧
      (∀ addr : Word, s.readByte addr = Memory.read l.mem addr.toNat) ∧ s.config = c

/-- The invariant holds after every construction with an admissible STACK_BASE and canonical memory, and at
State.reset (whose draws are the model's choice, log 1, 2, 3, 4). -/
def Obligations.ConstructionMeetsInvariant : Prop :=
  (∀ (c : Config) (l : Launch), c.wellFormed = true → Memory.wf l.mem = true → Inv (State.construct c l)) ∧
    Inv State.reset

/-- Every step keeps the invariant: the memory's canonical form (log 9), bit 5 of P (R28), a legal status (R201, R202)
and the parameters. -/
def Obligations.StepKeepsInvariant : Prop :=
  ∀ s t : State, Inv s → step s = .next t → Inv t

/-! ## Memory -/

/-- R41: a read gives the byte, or raises above 0xFFFF. -/
def Obligations.MemReadChecksRange : Prop :=
  ∀ (addr : Nat) (s : State),
    (addr > 0xFFFF → s.memRead addr = .error (.addressOutOfRange addr)) ∧
      (addr ≤ 0xFFFF → s.memRead addr = .ok (Memory.read s.mem addr))

/-- R42: a write changes exactly one byte and nothing else, or raises above 0xFFFF. -/
def Obligations.MemWriteChangesOneByte : Prop :=
  ∀ (addr : Nat) (v : Byte) (s : State),
    (addr > 0xFFFF → s.memWrite addr v = .error (.addressOutOfRange addr)) ∧
      (addr ≤ 0xFFFF →
        ∃ t, s.memWrite addr v = .ok t ∧ Memory.read t.mem addr = v ∧
          (∀ other, other ≠ addr → Memory.read t.mem other = Memory.read s.mem other) ∧
          t = { s with mem := t.mem })

/-- R50: after any sequence of writes, a read returns the value of the most recent write to its address, or the value
from before the sequence if there is none. -/
def Obligations.ReadsReturnLatestWrite : Prop :=
  ∀ (writes : List (Word × Byte)) (s : State) (addr : Word),
    (writes.foldl (fun st w => st.writeByte w.1 w.2) s).readByte addr =
      match writes.reverse.find? (fun w => w.1 == addr) with
      | some w => w.2
      | none => s.readByte addr

/-- Log 9 (the model's representation of R40's array): two memories in canonical form that give the same byte at every
address are the same list. -/
def Obligations.CanonicalMemoriesWithEqualBytesAreEqual : Prop :=
  ∀ m m' : Memory, Memory.wf m = true → Memory.wf m' = true →
    (∀ addr : Nat, addr < 65536 → Memory.read m addr = Memory.read m' addr) → m = m'

/-! ## Encoding and decode -/

/-- R60 to R66: decoding the bytes of any instruction, with any bytes after them, gives it back with every operand bit. -/
def Obligations.DecodeOfEncodeIsIdentity : Prop :=
  ∀ (i : Instr) (rest : List Byte), decode (encode i ++ rest) = .ok (i, rest)

/-- R65: bytes that decode to an instruction are exactly that instruction's encoding, so each instruction has one
encoding and each encoding one meaning. -/
def Obligations.DecodedBytesAreTheEncoding : Prop :=
  ∀ (bytes : List Byte) (i : Instr) (rest : List Byte),
    decode bytes = .ok (i, rest) → bytes = encode i ++ rest

/-- R61: the length of each mode, and the length of every instruction is its mode's. -/
def Obligations.LengthIsOnePlusOperandBytes : Prop :=
  (∀ i : Instr, (encode i).length = 1 + i.operand.mode.operandBytes ∧ i.length = (encode i).length) ∧
    Mode.implied.length = 1 ∧ Mode.immediate.length = 2 ∧
    Mode.zeroPage.length = 2 ∧ Mode.zeroPageX.length = 2 ∧ Mode.zeroPageY.length = 2 ∧
    Mode.indirectX.length = 2 ∧ Mode.indirectY.length = 2 ∧
    Mode.absolute.length = 3 ∧ Mode.absoluteX.length = 3 ∧ Mode.absoluteY.length = 3 ∧
    Mode.indirect.length = 3

/-- R68 (over the table of R66, the spec's decision D1, D2, log 13): 194 opcode bytes are absent, each is rejected by
name whatever follows it, and every other opcode decodes with any operand bytes. -/
def Obligations.AbsentOpcodesAreRejected : Prop :=
  ((List.range 256).filter (fun n => (lookup (BitVec.ofNat 8 n)).isNone)).length = 194 ∧
    (∀ (opcode : Byte) (rest : List Byte), lookup opcode = none →
      decode (opcode :: rest) = .error (.unknownOpcode opcode)) ∧
    (∀ (opcode lo hi : Byte) (d : Descriptor), lookup opcode = some d →
      ∃ i after, decode [opcode, lo, hi] = .ok (i, after) ∧ i.descriptor = d)

/-- A few words written out from R62 and R66 (A9, A2, 86, A5 and 00 are the bytes the source shows; the others are the
spec's decision D2, log 13). -/
def Obligations.SampleWordsDecode : Prop :=
  decode [0b10101001, 0b00000101] = .ok (.ldaImmediate 0x05, []) ∧
    decode [0b10100010, 0b00101010] = .ok (.ldxImmediate 0x2A, []) ∧
    decode [0b10000110, 0b00000001] = .ok (.stxZeroPage 0x01, []) ∧
    decode [0b10100101, 0b00000001] = .ok (.ldaZeroPage 0x01, []) ∧
    decode [0b00000000] = .ok (.brk, []) ∧
    decode [0b10111101, 0b11111111, 0b00000010] = .ok (.ldaAbsoluteX 0x02FF, []) ∧
    decode [0b01101100, 0b00010000, 0b00000000] = .ok (.jmpIndirect 0x0010, []) ∧
    decode [0b10010001, 0b00010000] = .ok (.staIndirectY 0x10, []) ∧
    decode [0b10101010] = .ok (.tax, []) ∧
    decode [0b01001000] = .ok (.pha, [])

/-- R44, R62, R63 (low byte first: the spec's choice C1, D3, log 13): the operand of a 3-byte instruction is
`hi * 256 + lo` with `lo` the byte at opAddr + 1 and `hi` the byte at opAddr + 2. -/
def Obligations.WordOperandsAreLittleEndian : Prop :=
  ∀ (opcode lo hi : Byte) (i : Instr) (rest : List Byte),
    decode [opcode, lo, hi] = .ok (i, rest) → i.length = 3 →
      ∃ w : Word, w.toNat = hi.toNat * 256 + lo.toNat ∧
        (i.operand = .absolute w ∨ i.operand = .absoluteX w ∨ i.operand = .absoluteY w ∨ i.operand = .indirect w)

/-- R81: while Running, a step whose bytes at PC decode to an instruction is that instruction's execution. In this
model exec itself moves PC past the instruction (log 11), so step adds nothing around it. -/
def Obligations.StepRunsDecodedInstruction : Prop :=
  ∀ (s : State) (i : Instr) (rest : List Byte), s.status = .running →
    decode [s.readByte s.pc, s.readByte (s.pc + 1), s.readByte (s.pc + 2)] = .ok (i, rest) →
      step s = exec i s

/-- R201: an absent opcode byte stops the engine with PC one past it and nothing else changed, no operand byte being
fetched, and no admitted instruction raises UnknownOpcode. -/
def Obligations.UnknownOpcodeStopsEngine : Prop :=
  (∀ s : State, s.status = .running → lookup s.opcodeAtPC = none →
    s.fetchBytes = [s.opcodeAtPC] ∧
      step s = .next { s with pc := s.pc + 1, status := .error (.unknownOpcode s.opcodeAtPC) }) ∧
    (∀ (i : Instr) (s t : State) (opcode : Byte), exec i s = .next t →
      t.status = .error (.unknownOpcode opcode) → s.status = .error (.unknownOpcode opcode))

/-- R81 with R100 to R114, R120 to R176 and R205: a step of a Running engine is the spec's pseudocode, read line by
line in Machine/Pseudocode.lean. It rests on the spec's decisions D3 and D7 to D16 (byte order, pull order, zero-page
pointers, PC wrap and PC after an error, flags of transfers, increments and PLA, bits of PLP and PHP, BRK; log 13), on
its payload D25 and wrap D28 (log 13), on errors being next states (log 6) and on exec moving PC itself (log 11). -/
def Obligations.StepMatchesPseudocode : Prop :=
  ∀ s : State, s.status = .running → step s = .next (pseudoStep s)

/-! ## Addressing modes -/

/-- R103, R104, R105: Implied gives 0, Immediate the byte itself, ZeroPage the byte as an address in page 0; none
raises, and PC moves by 1, 2 and 2 bytes. -/
def Obligations.DirectModesResolve : Prop :=
  ∀ (b : Byte) (s : State),
    resolve .implied s = .ok 0 ∧ Operand.implied.length = 1 ∧
      (∃ ea : Word, resolve (.immediate b) s = .ok ea ∧ ea.toNat = b.toNat ∧
        operandData (.immediate b) s = .ok b) ∧ (Operand.immediate b).length = 2 ∧
      (∃ ea : Word, resolve (.zeroPage b) s = .ok ea ∧ ea.toNat = b.toNat ∧ ea.toNat ≤ 0x00FF) ∧
      (Operand.zeroPage b).length = 2

/-- R106, R107: the zero-page index sum wraps modulo 256; ZeroPageY is used only by LDX and STX. -/
def Obligations.ZeroPageIndexWraps : Prop :=
  (∀ (z : Byte) (s : State),
    (∃ ea : Word, resolve (.zeroPageX z) s = .ok ea ∧ ea.toNat = (z.toNat + s.x.toNat) % 256) ∧
      (∃ ea : Word, resolve (.zeroPageY z) s = .ok ea ∧ ea.toNat = (z.toNat + s.y.toNat) % 256) ∧
      (Operand.zeroPageX z).length = 2 ∧ (Operand.zeroPageY z).length = 2) ∧
    ∀ i : Instr, i.operand.mode = .zeroPageY → i.mnemonic = .ldx ∨ i.mnemonic = .stx

/-- R109, R110: the absolute index sum is exact, carries into the high byte, and raises above 0xFFFF. -/
def Obligations.AbsoluteIndexIsExact : Prop :=
  ∀ (base : Word) (s : State),
    (base.toNat + s.x.toNat ≤ 0xFFFF →
      ∃ ea : Word, resolve (.absoluteX base) s = .ok ea ∧ ea.toNat = base.toNat + s.x.toNat) ∧
    (base.toNat + s.x.toNat > 0xFFFF →
      resolve (.absoluteX base) s = .error (.addressOutOfRange (base.toNat + s.x.toNat))) ∧
    (base.toNat + s.y.toNat ≤ 0xFFFF →
      ∃ ea : Word, resolve (.absoluteY base) s = .ok ea ∧ ea.toNat = base.toNat + s.y.toNat) ∧
    (base.toNat + s.y.toNat > 0xFFFF →
      resolve (.absoluteY base) s = .error (.addressOutOfRange (base.toNat + s.y.toNat))) ∧
    (Operand.absoluteX base).length = 3 ∧ (Operand.absoluteY base).length = 3

/-- R108 and R111 (byte order C1, no page wrap C7, as the spec resolves them): Absolute is the operand itself; Indirect
reads its low byte at the pointer and its high byte at the exact pointer + 1, raises at pointer 0xFFFF, and is used
only by JMP. -/
def Obligations.AbsoluteAndIndirectResolve : Prop :=
  (∀ (w : Word) (s : State),
    resolve (.absolute w) s = .ok w ∧ (Operand.absolute w).length = 3 ∧ (Operand.indirect w).length = 3 ∧
      (w.toNat < 0xFFFF →
        ∃ ea : Word, resolve (.indirect w) s = .ok ea ∧
          ea.toNat = (Memory.read s.mem (w.toNat + 1)).toNat * 256 + (Memory.read s.mem w.toNat).toNat) ∧
      (w.toNat = 0xFFFF → resolve (.indirect w) s = .error (.addressOutOfRange 0x10000))) ∧
    ∀ i : Instr, i.operand.mode = .indirect → i.mnemonic = .jmp

/-- R112, R113, R114 (second pointer byte within page 0: the spec's decision D8, log 13): IndirectX indexes before the
dereference and cannot raise; IndirectY indexes after it, with an exact sum that raises above 0xFFFF. -/
def Obligations.ZeroPagePointerModesResolve : Prop :=
  ∀ (z : Byte) (s : State),
    let pointerAt := fun n : Nat =>
      (Memory.read s.mem ((n + 1) % 256)).toNat * 256 + (Memory.read s.mem n).toNat
    (∃ ea : Word, resolve (.indirectX z) s = .ok ea ∧ ea.toNat = pointerAt ((z.toNat + s.x.toNat) % 256)) ∧
      (pointerAt z.toNat + s.y.toNat ≤ 0xFFFF →
        ∃ ea : Word, resolve (.indirectY z) s = .ok ea ∧ ea.toNat = pointerAt z.toNat + s.y.toNat) ∧
      (pointerAt z.toNat + s.y.toNat > 0xFFFF →
        resolve (.indirectY z) s = .error (.addressOutOfRange (pointerAt z.toNat + s.y.toNat))) ∧
      (Operand.indirectX z).length = 2 ∧ (Operand.indirectY z).length = 2

/-- R115, C9 (derived by the spec): with index 0 the two indirect modes agree for every operand byte and memory; for
every other index value there are an operand byte and a state, with X = Y = that value, in which they differ; and
95_test_vectors.md L1-6, first row, is such a state for index 2. -/
def Obligations.IndirectModesAgreeAtIndexZero : Prop :=
  (∀ (z : Byte) (s : State), s.x = 0 → s.y = 0 → resolve (.indirectX z) s = resolve (.indirectY z) s) ∧
    (∀ v : Byte, v ≠ 0 → ∃ (z : Byte) (s : State), s.x = v ∧ s.y = v ∧
      resolve (.indirectX z) s ≠ resolve (.indirectY z) s) ∧
    ∃ (z : Byte) (s : State), s.x = 2 ∧ s.y = 2 ∧ resolve (.indirectX z) s = .ok 0x5678 ∧
      resolve (.indirectY z) s = .ok 0x1236

/-! ## Flags and stack addresses -/

/-- R86: setNZ writes Z and N from the value, both from scratch, and touches no other flag and nothing else. -/
def Obligations.SetNZFollowsValue : Prop :=
  ∀ (v : Byte) (s : State),
    ShowsNZ v (s.setNZ v) ∧ SameExcept [.flag .negative, .flag .zero] s (s.setNZ v) ∧ (s.setNZ v).pc = s.pc

/-- R28: bit 5 of P reads 1 at all times, also after construction, after PLP, and after any write; and no step clears
the stored bit. -/
def Obligations.UnusedFlagAlwaysReadsOne : Prop :=
  (∀ s : State, s.flag .unused = true) ∧
    (∀ (c : Config) (l : Launch), (State.construct c l).p.getLsbD 5 = true) ∧
    (∀ (v : Byte) (s : State), (s.writeP v).p.getLsbD 5 = true) ∧
    (∀ s : State, ∃ t, exec .plp s = .next t ∧ t.p.getLsbD 5 = true) ∧
    (∀ s t : State, s.p.getLsbD 5 = true → step s = .next t → t.p.getLsbD 5 = true)

/-- R25, R48 (STACK_BASE: the spec's decision D6): for an admissible STACK_BASE the address of a stack slot is the exact
difference and stays in the stack page. -/
def Obligations.StackAddressStaysInPage : Prop :=
  ∀ (s : State) (slot : Byte), s.config.wellFormed = true →
    (s.stackAddr slot).toNat + slot.toNat = s.config.stackBase.toNat ∧
      (s.stackAddr slot).toNat / 256 = s.config.stackBase.toNat / 256

/-! ## Instructions: result, completion and frame -/

/-- R120, R121, R122: the 18 forms of LDA, LDX and LDY, on any operand whose data can be read, load the data into their
register, set N and Z from it, move PC past the instruction and change nothing else. -/
def Obligations.LoadsWriteRegister : Prop :=
  ∀ (i : Instr) (s : State) (v : Byte), DataIs i.operand s v →
    (i.mnemonic = .lda → ∃ t, exec i s = .next t ∧ t.a = v ∧ ShowsNZ v t ∧ PCPast i s t ∧
      SameExcept [.a, .flag .negative, .flag .zero] s t) ∧
    (i.mnemonic = .ldx → ∃ t, exec i s = .next t ∧ t.x = v ∧ ShowsNZ v t ∧ PCPast i s t ∧
      SameExcept [.x, .flag .negative, .flag .zero] s t) ∧
    (i.mnemonic = .ldy → ∃ t, exec i s = .next t ∧ t.y = v ∧ ShowsNZ v t ∧ PCPast i s t ∧
      SameExcept [.y, .flag .negative, .flag .zero] s t)

/-- R123, R124, R125: the 13 forms of STA, STX and STY write their register to the resolved address, change no other
byte, no flag and no register, and move PC past the instruction. -/
def Obligations.StoresWriteOneByte : Prop :=
  ∀ (i : Instr) (s : State) (ea : Word), resolve i.operand s = .ok ea →
    (i.mnemonic = .sta → ∃ t, exec i s = .next t ∧ WritesOnly ea s.a s t ∧ PCPast i s t ∧ SameExcept [.mem] s t) ∧
    (i.mnemonic = .stx → ∃ t, exec i s = .next t ∧ WritesOnly ea s.x s t ∧ PCPast i s t ∧ SameExcept [.mem] s t) ∧
    (i.mnemonic = .sty → ∃ t, exec i s = .next t ∧ WritesOnly ea s.y s t ∧ PCPast i s t ∧ SameExcept [.mem] s t)

/-- R140, R141, R144 (no flag unless TRANSFER_NZ_ALL: the spec's decision D11, log 13): TAX, TAY and TSX copy their
source; N and Z follow the value only under the parameter. -/
def Obligations.TransfersToIndexRegisters : Prop :=
  ∀ s : State,
    (s.config.transferNZAll = false →
      (∃ t, exec .tax s = .next t ∧ t.x = s.a ∧ PCPast .tax s t ∧ SameExcept [.x] s t) ∧
      (∃ t, exec .tay s = .next t ∧ t.y = s.a ∧ PCPast .tay s t ∧ SameExcept [.y] s t) ∧
      (∃ t, exec .tsx s = .next t ∧ t.x = s.sp ∧ PCPast .tsx s t ∧ SameExcept [.x] s t)) ∧
    (s.config.transferNZAll = true →
      (∃ t, exec .tax s = .next t ∧ t.x = s.a ∧ ShowsNZ s.a t ∧ PCPast .tax s t ∧
        SameExcept [.x, .flag .negative, .flag .zero] s t) ∧
      (∃ t, exec .tay s = .next t ∧ t.y = s.a ∧ ShowsNZ s.a t ∧ PCPast .tay s t ∧
        SameExcept [.y, .flag .negative, .flag .zero] s t) ∧
      (∃ t, exec .tsx s = .next t ∧ t.x = s.sp ∧ ShowsNZ s.sp t ∧ PCPast .tsx s t ∧
        SameExcept [.x, .flag .negative, .flag .zero] s t))

/-- R142, R143: TXA and TYA copy their source to A and set N and Z from it. -/
def Obligations.TransfersToAccumulator : Prop :=
  ∀ s : State,
    (∃ t, exec .txa s = .next t ∧ t.a = s.x ∧ ShowsNZ s.x t ∧ PCPast .txa s t ∧
      SameExcept [.a, .flag .negative, .flag .zero] s t) ∧
    (∃ t, exec .tya s = .next t ∧ t.a = s.y ∧ ShowsNZ s.y t ∧ PCPast .tya s t ∧
      SameExcept [.a, .flag .negative, .flag .zero] s t)

/-- R145: TXS copies X to SP and writes no flag, whatever TRANSFER_NZ_ALL is. -/
def Obligations.TxsSetsStackPointer : Prop :=
  ∀ s : State, ∃ t, exec .txs s = .next t ∧ t.sp = s.x ∧ PCPast .txs s t ∧ SameExcept [.sp] s t

/-- R150: the 8 forms of ORA OR the data into A bit by bit and set N and Z from the result. -/
def Obligations.OraOrsIntoAccumulator : Prop :=
  ∀ (i : Instr) (s : State) (m : Byte), i.mnemonic = .ora → DataIs i.operand s m →
    ∃ t, exec i s = .next t ∧ (∀ k, t.a.getLsbD k = (s.a.getLsbD k || m.getLsbD k)) ∧ ShowsNZ t.a t ∧
      PCPast i s t ∧ SameExcept [.a, .flag .negative, .flag .zero] s t

/-- R151 (N and Z written: the spec's decision D12, log 13): the 4 forms of INC add 1 modulo 256 to the byte at the
resolved address, change no other byte, and set N and Z from the result. -/
def Obligations.IncIncrementsByte : Prop :=
  ∀ (i : Instr) (s : State) (ea : Word), i.mnemonic = .inc → resolve i.operand s = .ok ea →
    ∃ t, exec i s = .next t ∧ (t.readByte ea).toNat = ((s.readByte ea).toNat + 1) % 256 ∧
      WritesOnly ea (t.readByte ea) s t ∧ ShowsNZ (t.readByte ea) t ∧ PCPast i s t ∧
      SameExcept [.mem, .flag .negative, .flag .zero] s t

/-- R152, R153 (N and Z written: the spec's decision D12, log 13): INX and INY add 1 modulo 256. -/
def Obligations.InxInyIncrement : Prop :=
  ∀ s : State,
    (∃ t, exec .inx s = .next t ∧ t.x.toNat = (s.x.toNat + 1) % 256 ∧ ShowsNZ t.x t ∧ PCPast .inx s t ∧
      SameExcept [.x, .flag .negative, .flag .zero] s t) ∧
    (∃ t, exec .iny s = .next t ∧ t.y.toNat = (s.y.toNat + 1) % 256 ∧ ShowsNZ t.y t ∧ PCPast .iny s t ∧
      SameExcept [.y, .flag .negative, .flag .zero] s t)

/-- R160, R161 (P pushed as held: the spec's decision D15; SP wraps: D28; log 13): PHA and PHP write A and P to the slot
SP names, change no other byte and no flag, and decrement SP modulo 256. -/
def Obligations.PushesStoreBelowBase : Prop :=
  ∀ s : State,
    (∃ t, exec .pha s = .next t ∧ WritesOnly (s.stackAddr s.sp) s.a s t ∧ t.sp.toNat = (s.sp.toNat + 255) % 256 ∧
      PCPast .pha s t ∧ SameExcept [.mem, .sp] s t) ∧
    (∃ t, exec .php s = .next t ∧ WritesOnly (s.stackAddr s.sp) s.readP s t ∧ s.readP.getLsbD 5 = true ∧
      t.sp.toNat = (s.sp.toNat + 255) % 256 ∧ PCPast .php s t ∧ SameExcept [.mem, .sp] s t)

/-- R162 (pull order: the spec's decision D7; N and Z: D13; log 13): PLA increments SP modulo 256, loads A from the slot
the new SP names, sets N and Z from it, and changes no byte of memory. -/
def Obligations.PlaPullsAccumulator : Prop :=
  ∀ s : State, ∃ t, exec .pla s = .next t ∧ t.sp.toNat = (s.sp.toNat + 1) % 256 ∧
    t.a = s.readByte (s.stackAddr t.sp) ∧ ShowsNZ t.a t ∧ PCPast .pla s t ∧
    SameExcept [.a, .sp, .flag .negative, .flag .zero] s t

/-- R163 (every bit but bit 5 loaded: the spec's decision D14; pull order D7; log 13): PLP increments SP modulo 256 and
loads every flag but the unused one from the slot the new SP names; bit 5 stays 1. -/
def Obligations.PlpPullsFlags : Prop :=
  ∀ s : State, ∃ t, exec .plp s = .next t ∧ t.sp.toNat = (s.sp.toNat + 1) % 256 ∧
    (∀ f, f ≠ .unused → t.flag f = (s.readByte (s.stackAddr t.sp)).getLsbD f.bit) ∧ t.flag .unused = true ∧
    PCPast .plp s t ∧ s.mem = t.mem ∧ t.a = s.a ∧ t.x = s.x ∧ t.y = s.y ∧ t.status = s.status ∧ t.config = s.config

/-- R26: the bit of P in which each condition stands (the spec's placement D4), shown by the byte PHP writes. -/
def Obligations.PhpShowsFlagBits : Prop :=
  ∀ s : State, ∃ t, exec .php s = .next t ∧
    let pushed := t.readByte (s.stackAddr s.sp)
    pushed.getLsbD 7 = s.flag .negative ∧ pushed.getLsbD 6 = s.flag .overflow ∧ pushed.getLsbD 5 = true ∧
      pushed.getLsbD 4 = s.flag .breakFlag ∧ pushed.getLsbD 3 = s.flag .decimal ∧
      pushed.getLsbD 2 = s.flag .interruptDisable ∧ pushed.getLsbD 1 = s.flag .zero ∧
      pushed.getLsbD 0 = s.flag .carry

/-- The round trip of 45_stack.md's introduction: a push followed by the pull of the same register restores the
register and SP (P: as read). -/
def Obligations.PushThenPullRestores : Prop :=
  ∀ s : State,
    (∃ t u, exec .pha s = .next t ∧ exec .pla t = .next u ∧ u.a = s.a ∧ u.sp = s.sp ∧ u.x = s.x ∧ u.y = s.y) ∧
    (∃ t u, exec .php s = .next t ∧ exec .plp t = .next u ∧ u.readP = s.readP ∧ u.sp = s.sp ∧ u.a = s.a ∧
      u.x = s.x ∧ u.y = s.y)

/-- R170, R171: JMP in both modes sets PC to the resolved address and changes nothing else. -/
def Obligations.JmpSetsProgramCounter : Prop :=
  ∀ (i : Instr) (s : State) (ea : Word), i.mnemonic = .jmp → resolve i.operand s = .ok ea →
    ∃ t, exec i s = .next t ∧ t.pc = ea ∧ SameExcept [] s t

/-- R172 to R175: CLC, CLD, CLI and CLV force the named flag to 0 and change nothing else. -/
def Obligations.ClearInstructionsClearOneFlag : Prop :=
  ∀ s : State,
    (∃ t, exec .clc s = .next t ∧ t.flag .carry = false ∧ PCPast .clc s t ∧ SameExcept [.flag .carry] s t) ∧
    (∃ t, exec .cld s = .next t ∧ t.flag .decimal = false ∧ PCPast .cld s t ∧ SameExcept [.flag .decimal] s t) ∧
    (∃ t, exec .cli s = .next t ∧ t.flag .interruptDisable = false ∧ PCPast .cli s t ∧
      SameExcept [.flag .interruptDisable] s t) ∧
    (∃ t, exec .clv s = .next t ∧ t.flag .overflow = false ∧ PCPast .clv s t ∧ SameExcept [.flag .overflow] s t)

/-- R176 (length 1, no push, no flag: the spec's decision D16, log 13): BRK halts the engine with PC one past it and
changes nothing else. -/
def Obligations.BrkHaltsEngine : Prop :=
  ∀ s : State, ∃ t, exec .brk s = .next t ∧ t.status = .halted ∧ PCPast .brk s t ∧ SameExcept [.status] s t

/-- R205 (PC one past the opcode: the spec's decision D10, log 13): an instruction whose operand cannot be resolved has
no effect but the fetch's advance of PC, and the engine stops with the error. -/
def Obligations.ResolverErrorStopsEngine : Prop :=
  ∀ (i : Instr) (s : State) (e : EngineError), resolve i.operand s = .error e →
    exec i s = .next (errorOutcome e s)

/-- R123's corner case ("Store followed by load at the same resolved address returns the stored value unchanged"), for
every form of STA, STX and STY followed by every memory form of LDA, LDX and LDY. -/
def Obligations.StoreThenLoadReturnsValue : Prop :=
  ∀ (i j : Instr) (s t : State) (ea : Word) (v : Byte),
    (i.mnemonic = .sta ∧ v = s.a ∨ i.mnemonic = .stx ∧ v = s.x ∨ i.mnemonic = .sty ∧ v = s.y) →
    j.operand.mode ≠ .immediate → resolve i.operand s = .ok ea → exec i s = .next t → resolve j.operand t = .ok ea →
      (j.mnemonic = .lda → ∃ u, exec j t = .next u ∧ u.a = v) ∧
      (j.mnemonic = .ldx → ∃ u, exec j t = .next u ∧ u.x = v) ∧
      (j.mnemonic = .ldy → ∃ u, exec j t = .next u ∧ u.y = v)

/-! ## The whole machine -/

/-- R80, R81, R205: every step of every state answers a next state: no step ends in a fault or a refusal. -/
def Obligations.EveryStepAnswersNext : Prop :=
  ∀ s : State, ∃ t, step s = .next t

/-- R80, R216 (the spec's decision D17; a step of a stopped engine answers the same state: log 7): Halted and Error are
terminal. -/
def Obligations.StoppedEngineStays : Prop :=
  ∀ s : State, s.status ≠ .running → step s = .next s ∧ ∀ n, steps n s = s

/-- R80, R88: a step of a Running engine ends Halted exactly when the opcode at PC is BRK's, with PC one past it and
nothing else changed, and in Error(e) exactly when decode or the resolver raises e. -/
def Obligations.StatusMovesOnlyAsStated : Prop :=
  ∀ s t : State, s.status = .running → step s = .next t →
    (t.status = .halted ↔ s.opcodeAtPC = 0x00) ∧
    (t.status = .halted → t = { s with pc := s.pc + 1, status := .halted }) ∧
    (∀ e, t.status = .error e ↔
      (lookup s.opcodeAtPC = none ∧ e = .unknownOpcode s.opcodeAtPC) ∨
        ∃ i, Fetches s i ∧ resolve i.operand s = .error e)

/-- R205 (PC: the spec's decision D10, log 13): a step that ends in an error commits nothing but PC and the status. -/
def Obligations.ErrorsAreAtomic : Prop :=
  ∀ (s t : State) (e : EngineError), s.status = .running → step s = .next t → t.status = .error e →
    t = errorOutcome e s

/-- R202 (payload: the spec's decision D25, log 13): AddressOutOfRange is raised only by the forms of R202's table, with
the exact address, between 0x10000 and 0x100FE. -/
def Obligations.OutOfRangeOnlyFromListedForms : Prop :=
  ∀ (s t : State) (n : Nat), s.status = .running → step s = .next t →
    t.status = .error (.addressOutOfRange n) →
      0x10000 ≤ n ∧ n ≤ 0x100FE ∧ ∃ i, Fetches s i ∧
        ((i.mnemonic ∈ [.lda, .ldy, .sta, .ora, .inc] ∧
            ∃ base : Word, i.operand = .absoluteX base ∧ n = base.toNat + s.x.toNat) ∨
          (i.mnemonic ∈ [.lda, .ldx, .sta, .ora] ∧
            ∃ base : Word, i.operand = .absoluteY base ∧ n = base.toNat + s.y.toNat) ∨
          (i.mnemonic ∈ [.lda, .sta, .ora] ∧
            ∃ z : Byte, i.operand = .indirectY z ∧ n = (readZpPtr z s).toNat + s.y.toNat) ∨
          (i.mnemonic = .jmp ∧ i.operand = .indirect 0xFFFF ∧ n = 0x10000))

/-- R21 to R25, R34 (PC modulo 65536: the spec's decision D9, log 13): each of A, X, Y and SP is written only by the
instructions the spec lists; PC goes anywhere but past the instruction only by JMP and by the error outcome (R205) of an
operand that raises; and no step writes the parameters. -/
def Obligations.RegistersChangeOnlyByListedWriters : Prop :=
  (∀ (i : Instr) (s t : State), exec i s = .next t →
    (i.mnemonic ∉ [.lda, .txa, .tya, .ora, .pla] → t.a = s.a) ∧
      (i.mnemonic ∉ [.ldx, .tax, .tsx, .inx] → t.x = s.x) ∧
      (i.mnemonic ∉ [.ldy, .tay, .iny] → t.y = s.y) ∧
      (i.mnemonic ∉ [.pha, .php, .pla, .plp, .txs] → t.sp = s.sp) ∧
      (i.mnemonic ≠ .jmp → (∀ e, resolve i.operand s ≠ .error e) → PCPast i s t)) ∧
    ∀ s t : State, step s = .next t → t.config = s.config

/-- R26, R27, R29, R30: each flag changes only by the instructions the spec lists for it (Carry by CLC and PLP alone);
N and Z also by TAX, TAY and TSX when TRANSFER_NZ_ALL is true. -/
def Obligations.FlagsChangeOnlyByListedWriters : Prop :=
  ∀ (i : Instr) (s t : State) (f : Flag), exec i s = .next t →
    i.mnemonic ∉ flagWriters s.config.transferNZAll f → t.flag f = s.flag f

/-- R43, R47: an instruction writes at most one byte of memory, at the address storeAddress computes; loads, transfers,
pulls, jumps, clears and BRK write none. -/
def Obligations.MemoryChangesOnlyAtStoreAddress : Prop :=
  ∀ (i : Instr) (s t : State) (b : Word), exec i s = .next t → storeAddress i s ≠ some b →
    t.readByte b = s.readByte b

/-- R26: no instruction's result depends on a flag but PHP's: until a PHP is fetched, two runs that start in states that
differ only in P go through states that differ only in P. -/
def Obligations.FlagsSteerNothingBeforePhp : Prop :=
  ∀ (n : Nat) (s : State) (q : Byte),
    (∀ k, k < n → (steps k s).status = .running → (steps k s).opcodeAtPC ≠ 0x08) →
      ∃ q', steps n { s with p := q } = { steps n s with p := q' }

/-- R52 (D27, log 13): a byte that any instruction writes (STA, STX, STY, INC, PHA, PHP) at the address of the next
instruction is the first byte the next step fetches. -/
def Obligations.NextFetchSeesStore : Prop :=
  ∀ (i : Instr) (s : State) (ea : Word) (v : Byte), storeAddress i s = some ea → storeValue i s = some v →
    ea.toNat = (s.pc.toNat + i.length) % 65536 →
      ∃ t, exec i s = .next t ∧ t.pc = ea ∧ t.opcodeAtPC = v ∧ t.fetchBytes.head? = some v

/-- R236, R203 (boundary and payload: the spec's decision D20, log 13): load copies the image to LOAD_ADDR and changes
nothing else, or, where it would pass 0xFFFF, fails and writes nothing. -/
def Obligations.LoadInstallsImage : Prop :=
  ∀ (bytes : List Byte) (s : State),
    (s.config.loadAddr.toNat + bytes.length > 0x10000 →
      s.load bytes = .error (.loadOverflow s.config.loadAddr bytes.length)) ∧
    (s.config.loadAddr.toNat + bytes.length ≤ 0x10000 →
      ∃ t, s.load bytes = .ok t ∧ t = { s with mem := t.mem } ∧
        (∀ (k : Nat) (h : k < bytes.length), Memory.read t.mem (s.config.loadAddr.toNat + k) = bytes[k]) ∧
        ∀ addr, addr < s.config.loadAddr.toNat ∨ s.config.loadAddr.toNat + bytes.length ≤ addr →
          Memory.read t.mem addr = Memory.read s.mem addr)

/-- R88, R237: run reports one terminal state: two terminal states of the same start are the same, and on a stopped
engine (D17) it reports the state as it is. -/
def Obligations.RunReportsOneTerminalState : Prop :=
  (∀ s t u : State, runsTo s t → runsTo s u → t = u) ∧
    ∀ s : State, s.status ≠ .running → runsTo s s

/-- R89 (derived by the spec): a jump to itself, bytes 4C lo hi at address hi:lo, runs forever: no step errs and run
never returns. -/
def Obligations.JumpToItselfNeverEnds : Prop :=
  ∀ s : State, s.status = .running → Fetches s (.jmpAbsolute s.pc) →
    Safe s ∧ ¬ ∃ t, runsTo s t
end

