-- ==== Sys2Proof/Laws/Memory.lean ====
section
/-! SUPPORT. The laws of memory: reading after writing, and that reading and writing keep the canonical form. -/

namespace Sys2Proof.Machine

@[simp] theorem Memory.read_nil (addr : Nat) : Memory.read [] addr = unlistedByte := rfl

theorem Memory.read_erase_same (m : Memory) (addr : Nat) : Memory.read (Memory.erase m addr) addr = unlistedByte := by
  induction m with
  | nil => rfl
  | cons c rest ih =>
    obtain ⟨b, v⟩ := c
    by_cases h : addr = b <;> simp [Memory.erase, Memory.read, h]
    · subst h; exact ih
    · exact ih

theorem Memory.read_erase_other (m : Memory) {addr other : Nat} (h : other ≠ addr) :
    Memory.read (Memory.erase m addr) other = Memory.read m other := by
  induction m with
  | nil => rfl
  | cons c rest ih =>
    obtain ⟨b, v⟩ := c
    by_cases hb : addr = b
    · subst hb; simp [Memory.erase, Memory.read, h, ih]
    · simp [Memory.erase, Memory.read, hb, ih]

theorem Memory.read_insert_same (m : Memory) (addr : Nat) (new : Byte) :
    Memory.read (Memory.insert m addr new) addr = new := by
  induction m with
  | nil => simp [Memory.insert, Memory.read]
  | cons c rest ih =>
    obtain ⟨b, v⟩ := c
    simp only [Memory.insert]
    split
    · simp [Memory.read]
    · split
      · simp [Memory.read]
      · simp [Memory.read, *]

theorem Memory.read_insert_other (m : Memory) {addr other : Nat} (new : Byte) (h : other ≠ addr) :
    Memory.read (Memory.insert m addr new) other = Memory.read m other := by
  induction m with
  | nil => simp [Memory.insert, Memory.read, h]
  | cons c rest ih =>
    obtain ⟨b, v⟩ := c
    simp only [Memory.insert]
    split
    · simp [Memory.read, h]
    · split
      · rename_i hb; subst hb; simp [Memory.read, h]
      · simp [Memory.read, ih]

/-- R42, R50: a byte reads as last written. -/
@[simp] theorem Memory.read_write_same (m : Memory) (addr : Nat) (new : Byte) :
    Memory.read (Memory.write m addr new) addr = new := by
  unfold Memory.write
  split
  · rw [Memory.read_erase_same]; exact Eq.symm ‹_›
  · exact Memory.read_insert_same m addr new

/-- R42: a write leaves every other byte alone. -/
theorem Memory.read_write_other (m : Memory) {addr other : Nat} (new : Byte) (h : other ≠ addr) :
    Memory.read (Memory.write m addr new) other = Memory.read m other := by
  unfold Memory.write
  split
  · exact Memory.read_erase_other m h
  · exact Memory.read_insert_other m new h

/-- What Memory.wfFrom says of a memory with a first entry. -/
theorem Memory.wfFrom_cons (lo b : Nat) (v : Byte) (rest : Memory) :
    Memory.wfFrom lo ((b, v) :: rest) = true ↔
      lo ≤ b ∧ b < 65536 ∧ v ≠ unlistedByte ∧ Memory.wfFrom (b + 1) rest = true := by
  simp [Memory.wfFrom, and_assoc]

theorem Memory.wfFrom_mono {lo lo' : Nat} (h : lo ≤ lo') {m : Memory} (hm : Memory.wfFrom lo' m = true) :
    Memory.wfFrom lo m = true := by
  cases m with
  | nil => rfl
  | cons c rest =>
    obtain ⟨b, v⟩ := c
    rw [Memory.wfFrom_cons] at *
    exact ⟨le_trans h hm.1, hm.2⟩

theorem Memory.wfFrom_erase {lo : Nat} {m : Memory} (addr : Nat) (hm : Memory.wfFrom lo m = true) :
    Memory.wfFrom lo (Memory.erase m addr) = true := by
  induction m generalizing lo with
  | nil => rfl
  | cons c rest ih =>
    obtain ⟨b, v⟩ := c
    obtain ⟨h1, h2, h3, h4⟩ := (Memory.wfFrom_cons ..).mp hm
    simp only [Memory.erase]
    split
    · exact Memory.wfFrom_mono (by omega) (ih h4)
    · exact (Memory.wfFrom_cons ..).mpr ⟨h1, h2, h3, ih h4⟩

theorem Memory.wfFrom_insert {lo : Nat} {m : Memory} {addr : Nat} {new : Byte} (hlo : lo ≤ addr)
    (haddr : addr < 65536) (hnew : new ≠ unlistedByte) (hm : Memory.wfFrom lo m = true) :
    Memory.wfFrom lo (Memory.insert m addr new) = true := by
  induction m generalizing lo with
  | nil => exact (Memory.wfFrom_cons ..).mpr ⟨hlo, haddr, hnew, rfl⟩
  | cons c rest ih =>
    obtain ⟨b, v⟩ := c
    obtain ⟨h1, h2, h3, h4⟩ := (Memory.wfFrom_cons ..).mp hm
    simp only [Memory.insert]
    split
    · exact (Memory.wfFrom_cons ..).mpr ⟨hlo, haddr, hnew, (Memory.wfFrom_cons ..).mpr ⟨by omega, h2, h3, h4⟩⟩
    · split
      · subst addr; exact (Memory.wfFrom_cons ..).mpr ⟨hlo, haddr, hnew, h4⟩
      · exact (Memory.wfFrom_cons ..).mpr ⟨h1, h2, h3, ih (by omega) h4⟩

/-- Log 9: writing a byte of the address space keeps the canonical form (reading changes no memory). -/
theorem Memory.wf_write {m : Memory} {addr : Nat} (new : Byte) (haddr : addr < 65536) (hm : Memory.wf m = true) :
    Memory.wf (Memory.write m addr new) = true := by
  unfold Memory.write
  split
  · exact Memory.wfFrom_erase addr hm
  · exact Memory.wfFrom_insert (Nat.zero_le _) haddr ‹_› hm

end Sys2Proof.Machine
end

