-- ==== Sys2Proof/Laws/State.lean ====
section
/-! SUPPORT. One lemma per field per update of State, true by rfl, so that no later proof unfolds a record update; and
for each update that leaves P alone, that P reads the same. -/

namespace Sys2Proof.Machine


@[simp] theorem State.writeA_pc (v : Byte) (s : State) : (s.writeA v).pc = s.pc := rfl
@[simp] theorem State.writeA_sp (v : Byte) (s : State) : (s.writeA v).sp = s.sp := rfl
@[simp] theorem State.writeA_a (v : Byte) (s : State) : (s.writeA v).a = v := rfl
@[simp] theorem State.writeA_x (v : Byte) (s : State) : (s.writeA v).x = s.x := rfl
@[simp] theorem State.writeA_y (v : Byte) (s : State) : (s.writeA v).y = s.y := rfl
@[simp] theorem State.writeA_p (v : Byte) (s : State) : (s.writeA v).p = s.p := rfl
@[simp] theorem State.writeA_mem (v : Byte) (s : State) : (s.writeA v).mem = s.mem := rfl
@[simp] theorem State.writeA_status (v : Byte) (s : State) : (s.writeA v).status = s.status := rfl
@[simp] theorem State.writeA_config (v : Byte) (s : State) : (s.writeA v).config = s.config := rfl
@[simp] theorem State.writeA_readP (v : Byte) (s : State) : (s.writeA v).readP = s.readP := rfl
@[simp] theorem State.writeA_flag (v : Byte) (s : State) (f : Flag) : (s.writeA v).flag f = s.flag f := rfl
@[simp] theorem State.writeA_readByte (v : Byte) (s : State) (addr : Word) : (s.writeA v).readByte addr = s.readByte addr := rfl
@[simp] theorem State.writeA_stackAddr (v : Byte) (s : State) (slot : Byte) : (s.writeA v).stackAddr slot = s.stackAddr slot := rfl

@[simp] theorem State.writeX_pc (v : Byte) (s : State) : (s.writeX v).pc = s.pc := rfl
@[simp] theorem State.writeX_sp (v : Byte) (s : State) : (s.writeX v).sp = s.sp := rfl
@[simp] theorem State.writeX_a (v : Byte) (s : State) : (s.writeX v).a = s.a := rfl
@[simp] theorem State.writeX_x (v : Byte) (s : State) : (s.writeX v).x = v := rfl
@[simp] theorem State.writeX_y (v : Byte) (s : State) : (s.writeX v).y = s.y := rfl
@[simp] theorem State.writeX_p (v : Byte) (s : State) : (s.writeX v).p = s.p := rfl
@[simp] theorem State.writeX_mem (v : Byte) (s : State) : (s.writeX v).mem = s.mem := rfl
@[simp] theorem State.writeX_status (v : Byte) (s : State) : (s.writeX v).status = s.status := rfl
@[simp] theorem State.writeX_config (v : Byte) (s : State) : (s.writeX v).config = s.config := rfl
@[simp] theorem State.writeX_readP (v : Byte) (s : State) : (s.writeX v).readP = s.readP := rfl
@[simp] theorem State.writeX_flag (v : Byte) (s : State) (f : Flag) : (s.writeX v).flag f = s.flag f := rfl
@[simp] theorem State.writeX_readByte (v : Byte) (s : State) (addr : Word) : (s.writeX v).readByte addr = s.readByte addr := rfl
@[simp] theorem State.writeX_stackAddr (v : Byte) (s : State) (slot : Byte) : (s.writeX v).stackAddr slot = s.stackAddr slot := rfl

@[simp] theorem State.writeY_pc (v : Byte) (s : State) : (s.writeY v).pc = s.pc := rfl
@[simp] theorem State.writeY_sp (v : Byte) (s : State) : (s.writeY v).sp = s.sp := rfl
@[simp] theorem State.writeY_a (v : Byte) (s : State) : (s.writeY v).a = s.a := rfl
@[simp] theorem State.writeY_x (v : Byte) (s : State) : (s.writeY v).x = s.x := rfl
@[simp] theorem State.writeY_y (v : Byte) (s : State) : (s.writeY v).y = v := rfl
@[simp] theorem State.writeY_p (v : Byte) (s : State) : (s.writeY v).p = s.p := rfl
@[simp] theorem State.writeY_mem (v : Byte) (s : State) : (s.writeY v).mem = s.mem := rfl
@[simp] theorem State.writeY_status (v : Byte) (s : State) : (s.writeY v).status = s.status := rfl
@[simp] theorem State.writeY_config (v : Byte) (s : State) : (s.writeY v).config = s.config := rfl
@[simp] theorem State.writeY_readP (v : Byte) (s : State) : (s.writeY v).readP = s.readP := rfl
@[simp] theorem State.writeY_flag (v : Byte) (s : State) (f : Flag) : (s.writeY v).flag f = s.flag f := rfl
@[simp] theorem State.writeY_readByte (v : Byte) (s : State) (addr : Word) : (s.writeY v).readByte addr = s.readByte addr := rfl
@[simp] theorem State.writeY_stackAddr (v : Byte) (s : State) (slot : Byte) : (s.writeY v).stackAddr slot = s.stackAddr slot := rfl

@[simp] theorem State.writeSP_pc (v : Byte) (s : State) : (s.writeSP v).pc = s.pc := rfl
@[simp] theorem State.writeSP_sp (v : Byte) (s : State) : (s.writeSP v).sp = v := rfl
@[simp] theorem State.writeSP_a (v : Byte) (s : State) : (s.writeSP v).a = s.a := rfl
@[simp] theorem State.writeSP_x (v : Byte) (s : State) : (s.writeSP v).x = s.x := rfl
@[simp] theorem State.writeSP_y (v : Byte) (s : State) : (s.writeSP v).y = s.y := rfl
@[simp] theorem State.writeSP_p (v : Byte) (s : State) : (s.writeSP v).p = s.p := rfl
@[simp] theorem State.writeSP_mem (v : Byte) (s : State) : (s.writeSP v).mem = s.mem := rfl
@[simp] theorem State.writeSP_status (v : Byte) (s : State) : (s.writeSP v).status = s.status := rfl
@[simp] theorem State.writeSP_config (v : Byte) (s : State) : (s.writeSP v).config = s.config := rfl
@[simp] theorem State.writeSP_readP (v : Byte) (s : State) : (s.writeSP v).readP = s.readP := rfl
@[simp] theorem State.writeSP_flag (v : Byte) (s : State) (f : Flag) : (s.writeSP v).flag f = s.flag f := rfl
@[simp] theorem State.writeSP_readByte (v : Byte) (s : State) (addr : Word) : (s.writeSP v).readByte addr = s.readByte addr := rfl
@[simp] theorem State.writeSP_stackAddr (v : Byte) (s : State) (slot : Byte) : (s.writeSP v).stackAddr slot = s.stackAddr slot := rfl

@[simp] theorem State.writePC_pc (v : Word) (s : State) : (s.writePC v).pc = v := rfl
@[simp] theorem State.writePC_sp (v : Word) (s : State) : (s.writePC v).sp = s.sp := rfl
@[simp] theorem State.writePC_a (v : Word) (s : State) : (s.writePC v).a = s.a := rfl
@[simp] theorem State.writePC_x (v : Word) (s : State) : (s.writePC v).x = s.x := rfl
@[simp] theorem State.writePC_y (v : Word) (s : State) : (s.writePC v).y = s.y := rfl
@[simp] theorem State.writePC_p (v : Word) (s : State) : (s.writePC v).p = s.p := rfl
@[simp] theorem State.writePC_mem (v : Word) (s : State) : (s.writePC v).mem = s.mem := rfl
@[simp] theorem State.writePC_status (v : Word) (s : State) : (s.writePC v).status = s.status := rfl
@[simp] theorem State.writePC_config (v : Word) (s : State) : (s.writePC v).config = s.config := rfl
@[simp] theorem State.writePC_readP (v : Word) (s : State) : (s.writePC v).readP = s.readP := rfl
@[simp] theorem State.writePC_flag (v : Word) (s : State) (f : Flag) : (s.writePC v).flag f = s.flag f := rfl
@[simp] theorem State.writePC_readByte (v : Word) (s : State) (addr : Word) : (s.writePC v).readByte addr = s.readByte addr := rfl
@[simp] theorem State.writePC_stackAddr (v : Word) (s : State) (slot : Byte) : (s.writePC v).stackAddr slot = s.stackAddr slot := rfl

@[simp] theorem State.advance_pc (n : Nat) (s : State) : (s.advance n).pc = s.pc + BitVec.ofNat 16 n := rfl
@[simp] theorem State.advance_sp (n : Nat) (s : State) : (s.advance n).sp = s.sp := rfl
@[simp] theorem State.advance_a (n : Nat) (s : State) : (s.advance n).a = s.a := rfl
@[simp] theorem State.advance_x (n : Nat) (s : State) : (s.advance n).x = s.x := rfl
@[simp] theorem State.advance_y (n : Nat) (s : State) : (s.advance n).y = s.y := rfl
@[simp] theorem State.advance_p (n : Nat) (s : State) : (s.advance n).p = s.p := rfl
@[simp] theorem State.advance_mem (n : Nat) (s : State) : (s.advance n).mem = s.mem := rfl
@[simp] theorem State.advance_status (n : Nat) (s : State) : (s.advance n).status = s.status := rfl
@[simp] theorem State.advance_config (n : Nat) (s : State) : (s.advance n).config = s.config := rfl
@[simp] theorem State.advance_readP (n : Nat) (s : State) : (s.advance n).readP = s.readP := rfl
@[simp] theorem State.advance_flag (n : Nat) (s : State) (f : Flag) : (s.advance n).flag f = s.flag f := rfl
@[simp] theorem State.advance_readByte (n : Nat) (s : State) (addr : Word) : (s.advance n).readByte addr = s.readByte addr := rfl
@[simp] theorem State.advance_stackAddr (n : Nat) (s : State) (slot : Byte) : (s.advance n).stackAddr slot = s.stackAddr slot := rfl

@[simp] theorem State.writeP_pc (v : Byte) (s : State) : (s.writeP v).pc = s.pc := rfl
@[simp] theorem State.writeP_sp (v : Byte) (s : State) : (s.writeP v).sp = s.sp := rfl
@[simp] theorem State.writeP_a (v : Byte) (s : State) : (s.writeP v).a = s.a := rfl
@[simp] theorem State.writeP_x (v : Byte) (s : State) : (s.writeP v).x = s.x := rfl
@[simp] theorem State.writeP_y (v : Byte) (s : State) : (s.writeP v).y = s.y := rfl
@[simp] theorem State.writeP_p (v : Byte) (s : State) : (s.writeP v).p = v ||| alwaysOneMask := rfl
@[simp] theorem State.writeP_mem (v : Byte) (s : State) : (s.writeP v).mem = s.mem := rfl
@[simp] theorem State.writeP_status (v : Byte) (s : State) : (s.writeP v).status = s.status := rfl
@[simp] theorem State.writeP_config (v : Byte) (s : State) : (s.writeP v).config = s.config := rfl
@[simp] theorem State.writeP_readByte (v : Byte) (s : State) (addr : Word) : (s.writeP v).readByte addr = s.readByte addr := rfl
@[simp] theorem State.writeP_stackAddr (v : Byte) (s : State) (slot : Byte) : (s.writeP v).stackAddr slot = s.stackAddr slot := rfl

@[simp] theorem State.writeByte_pc (ea : Word) (v : Byte) (s : State) : (s.writeByte ea v).pc = s.pc := rfl
@[simp] theorem State.writeByte_sp (ea : Word) (v : Byte) (s : State) : (s.writeByte ea v).sp = s.sp := rfl
@[simp] theorem State.writeByte_a (ea : Word) (v : Byte) (s : State) : (s.writeByte ea v).a = s.a := rfl
@[simp] theorem State.writeByte_x (ea : Word) (v : Byte) (s : State) : (s.writeByte ea v).x = s.x := rfl
@[simp] theorem State.writeByte_y (ea : Word) (v : Byte) (s : State) : (s.writeByte ea v).y = s.y := rfl
@[simp] theorem State.writeByte_p (ea : Word) (v : Byte) (s : State) : (s.writeByte ea v).p = s.p := rfl
@[simp] theorem State.writeByte_mem (ea : Word) (v : Byte) (s : State) : (s.writeByte ea v).mem = Memory.write s.mem ea.toNat v := rfl
@[simp] theorem State.writeByte_status (ea : Word) (v : Byte) (s : State) : (s.writeByte ea v).status = s.status := rfl
@[simp] theorem State.writeByte_config (ea : Word) (v : Byte) (s : State) : (s.writeByte ea v).config = s.config := rfl
@[simp] theorem State.writeByte_readP (ea : Word) (v : Byte) (s : State) : (s.writeByte ea v).readP = s.readP := rfl
@[simp] theorem State.writeByte_flag (ea : Word) (v : Byte) (s : State) (f : Flag) : (s.writeByte ea v).flag f = s.flag f := rfl
@[simp] theorem State.writeByte_stackAddr (ea : Word) (v : Byte) (s : State) (slot : Byte) : (s.writeByte ea v).stackAddr slot = s.stackAddr slot := rfl

@[simp] theorem State.push_pc (v : Byte) (s : State) : (s.push v).pc = s.pc := rfl
@[simp] theorem State.push_sp (v : Byte) (s : State) : (s.push v).sp = s.sp - 1 := rfl
@[simp] theorem State.push_a (v : Byte) (s : State) : (s.push v).a = s.a := rfl
@[simp] theorem State.push_x (v : Byte) (s : State) : (s.push v).x = s.x := rfl
@[simp] theorem State.push_y (v : Byte) (s : State) : (s.push v).y = s.y := rfl
@[simp] theorem State.push_p (v : Byte) (s : State) : (s.push v).p = s.p := rfl
@[simp] theorem State.push_mem (v : Byte) (s : State) : (s.push v).mem = Memory.write s.mem (s.stackAddr s.sp).toNat v := rfl
@[simp] theorem State.push_status (v : Byte) (s : State) : (s.push v).status = s.status := rfl
@[simp] theorem State.push_config (v : Byte) (s : State) : (s.push v).config = s.config := rfl
@[simp] theorem State.push_readP (v : Byte) (s : State) : (s.push v).readP = s.readP := rfl
@[simp] theorem State.push_flag (v : Byte) (s : State) (f : Flag) : (s.push v).flag f = s.flag f := rfl

@[simp] theorem State.popSP_pc (s : State) : (s.popSP).pc = s.pc := rfl
@[simp] theorem State.popSP_sp (s : State) : (s.popSP).sp = s.sp + 1 := rfl
@[simp] theorem State.popSP_a (s : State) : (s.popSP).a = s.a := rfl
@[simp] theorem State.popSP_x (s : State) : (s.popSP).x = s.x := rfl
@[simp] theorem State.popSP_y (s : State) : (s.popSP).y = s.y := rfl
@[simp] theorem State.popSP_p (s : State) : (s.popSP).p = s.p := rfl
@[simp] theorem State.popSP_mem (s : State) : (s.popSP).mem = s.mem := rfl
@[simp] theorem State.popSP_status (s : State) : (s.popSP).status = s.status := rfl
@[simp] theorem State.popSP_config (s : State) : (s.popSP).config = s.config := rfl
@[simp] theorem State.popSP_readP (s : State) : (s.popSP).readP = s.readP := rfl
@[simp] theorem State.popSP_flag (s : State) (f : Flag) : (s.popSP).flag f = s.flag f := rfl
@[simp] theorem State.popSP_readByte (s : State) (addr : Word) : (s.popSP).readByte addr = s.readByte addr := rfl
@[simp] theorem State.popSP_stackAddr (s : State) (slot : Byte) : (s.popSP).stackAddr slot = s.stackAddr slot := rfl

@[simp] theorem State.halt_pc (s : State) : (s.halt).pc = s.pc := rfl
@[simp] theorem State.halt_sp (s : State) : (s.halt).sp = s.sp := rfl
@[simp] theorem State.halt_a (s : State) : (s.halt).a = s.a := rfl
@[simp] theorem State.halt_x (s : State) : (s.halt).x = s.x := rfl
@[simp] theorem State.halt_y (s : State) : (s.halt).y = s.y := rfl
@[simp] theorem State.halt_p (s : State) : (s.halt).p = s.p := rfl
@[simp] theorem State.halt_mem (s : State) : (s.halt).mem = s.mem := rfl
@[simp] theorem State.halt_status (s : State) : (s.halt).status = .halted := rfl
@[simp] theorem State.halt_config (s : State) : (s.halt).config = s.config := rfl
@[simp] theorem State.halt_readP (s : State) : (s.halt).readP = s.readP := rfl
@[simp] theorem State.halt_flag (s : State) (f : Flag) : (s.halt).flag f = s.flag f := rfl
@[simp] theorem State.halt_readByte (s : State) (addr : Word) : (s.halt).readByte addr = s.readByte addr := rfl
@[simp] theorem State.halt_stackAddr (s : State) (slot : Byte) : (s.halt).stackAddr slot = s.stackAddr slot := rfl

@[simp] theorem State.raiseError_pc (e : EngineError) (s : State) : (s.raiseError e).pc = s.pc + 1 := rfl
@[simp] theorem State.raiseError_sp (e : EngineError) (s : State) : (s.raiseError e).sp = s.sp := rfl
@[simp] theorem State.raiseError_a (e : EngineError) (s : State) : (s.raiseError e).a = s.a := rfl
@[simp] theorem State.raiseError_x (e : EngineError) (s : State) : (s.raiseError e).x = s.x := rfl
@[simp] theorem State.raiseError_y (e : EngineError) (s : State) : (s.raiseError e).y = s.y := rfl
@[simp] theorem State.raiseError_p (e : EngineError) (s : State) : (s.raiseError e).p = s.p := rfl
@[simp] theorem State.raiseError_mem (e : EngineError) (s : State) : (s.raiseError e).mem = s.mem := rfl
@[simp] theorem State.raiseError_status (e : EngineError) (s : State) : (s.raiseError e).status = .error e := rfl
@[simp] theorem State.raiseError_config (e : EngineError) (s : State) : (s.raiseError e).config = s.config := rfl
@[simp] theorem State.raiseError_readP (e : EngineError) (s : State) : (s.raiseError e).readP = s.readP := rfl
@[simp] theorem State.raiseError_flag (e : EngineError) (s : State) (f : Flag) : (s.raiseError e).flag f = s.flag f := rfl
@[simp] theorem State.raiseError_readByte (e : EngineError) (s : State) (addr : Word) : (s.raiseError e).readByte addr = s.readByte addr := rfl
@[simp] theorem State.raiseError_stackAddr (e : EngineError) (s : State) (slot : Byte) : (s.raiseError e).stackAddr slot = s.stackAddr slot := rfl

@[simp] theorem State.setFlag_pc (f : Flag) (b : Bool) (s : State) : (s.setFlag f b).pc = s.pc := rfl
@[simp] theorem State.setFlag_sp (f : Flag) (b : Bool) (s : State) : (s.setFlag f b).sp = s.sp := rfl
@[simp] theorem State.setFlag_a (f : Flag) (b : Bool) (s : State) : (s.setFlag f b).a = s.a := rfl
@[simp] theorem State.setFlag_x (f : Flag) (b : Bool) (s : State) : (s.setFlag f b).x = s.x := rfl
@[simp] theorem State.setFlag_y (f : Flag) (b : Bool) (s : State) : (s.setFlag f b).y = s.y := rfl
@[simp] theorem State.setFlag_p (f : Flag) (b : Bool) (s : State) : (s.setFlag f b).p = putFlag f b s.readP ||| alwaysOneMask := rfl
@[simp] theorem State.setFlag_mem (f : Flag) (b : Bool) (s : State) : (s.setFlag f b).mem = s.mem := rfl
@[simp] theorem State.setFlag_status (f : Flag) (b : Bool) (s : State) : (s.setFlag f b).status = s.status := rfl
@[simp] theorem State.setFlag_config (f : Flag) (b : Bool) (s : State) : (s.setFlag f b).config = s.config := rfl
@[simp] theorem State.setFlag_readByte (f : Flag) (b : Bool) (s : State) (addr : Word) : (s.setFlag f b).readByte addr = s.readByte addr := rfl
@[simp] theorem State.setFlag_stackAddr (f : Flag) (b : Bool) (s : State) (slot : Byte) : (s.setFlag f b).stackAddr slot = s.stackAddr slot := rfl

@[simp] theorem State.clearFlag_pc (f : Flag) (s : State) : (s.clearFlag f).pc = s.pc := rfl
@[simp] theorem State.clearFlag_sp (f : Flag) (s : State) : (s.clearFlag f).sp = s.sp := rfl
@[simp] theorem State.clearFlag_a (f : Flag) (s : State) : (s.clearFlag f).a = s.a := rfl
@[simp] theorem State.clearFlag_x (f : Flag) (s : State) : (s.clearFlag f).x = s.x := rfl
@[simp] theorem State.clearFlag_y (f : Flag) (s : State) : (s.clearFlag f).y = s.y := rfl
@[simp] theorem State.clearFlag_p (f : Flag) (s : State) : (s.clearFlag f).p = putFlag f false s.readP ||| alwaysOneMask := rfl
@[simp] theorem State.clearFlag_mem (f : Flag) (s : State) : (s.clearFlag f).mem = s.mem := rfl
@[simp] theorem State.clearFlag_status (f : Flag) (s : State) : (s.clearFlag f).status = s.status := rfl
@[simp] theorem State.clearFlag_config (f : Flag) (s : State) : (s.clearFlag f).config = s.config := rfl
@[simp] theorem State.clearFlag_readByte (f : Flag) (s : State) (addr : Word) : (s.clearFlag f).readByte addr = s.readByte addr := rfl

@[simp] theorem State.setNZ_pc (v : Byte) (s : State) : (s.setNZ v).pc = s.pc := rfl
@[simp] theorem State.setNZ_sp (v : Byte) (s : State) : (s.setNZ v).sp = s.sp := rfl
@[simp] theorem State.setNZ_a (v : Byte) (s : State) : (s.setNZ v).a = s.a := rfl
@[simp] theorem State.setNZ_x (v : Byte) (s : State) : (s.setNZ v).x = s.x := rfl
@[simp] theorem State.setNZ_y (v : Byte) (s : State) : (s.setNZ v).y = s.y := rfl
@[simp] theorem State.setNZ_mem (v : Byte) (s : State) : (s.setNZ v).mem = s.mem := rfl
@[simp] theorem State.setNZ_status (v : Byte) (s : State) : (s.setNZ v).status = s.status := rfl
@[simp] theorem State.setNZ_config (v : Byte) (s : State) : (s.setNZ v).config = s.config := rfl
@[simp] theorem State.setNZ_readByte (v : Byte) (s : State) (addr : Word) : (s.setNZ v).readByte addr = s.readByte addr := rfl
@[simp] theorem State.setNZ_stackAddr (v : Byte) (s : State) (slot : Byte) : (s.setNZ v).stackAddr slot = s.stackAddr slot := rfl

@[simp] theorem State.setNZIfTransferAll_pc (v : Byte) (s : State) : (s.setNZIfTransferAll v).pc = s.pc := by
  unfold State.setNZIfTransferAll; split <;> rfl
@[simp] theorem State.setNZIfTransferAll_sp (v : Byte) (s : State) : (s.setNZIfTransferAll v).sp = s.sp := by
  unfold State.setNZIfTransferAll; split <;> rfl
@[simp] theorem State.setNZIfTransferAll_a (v : Byte) (s : State) : (s.setNZIfTransferAll v).a = s.a := by
  unfold State.setNZIfTransferAll; split <;> rfl
@[simp] theorem State.setNZIfTransferAll_x (v : Byte) (s : State) : (s.setNZIfTransferAll v).x = s.x := by
  unfold State.setNZIfTransferAll; split <;> rfl
@[simp] theorem State.setNZIfTransferAll_y (v : Byte) (s : State) : (s.setNZIfTransferAll v).y = s.y := by
  unfold State.setNZIfTransferAll; split <;> rfl
@[simp] theorem State.setNZIfTransferAll_mem (v : Byte) (s : State) : (s.setNZIfTransferAll v).mem = s.mem := by
  unfold State.setNZIfTransferAll; split <;> rfl
@[simp] theorem State.setNZIfTransferAll_status (v : Byte) (s : State) : (s.setNZIfTransferAll v).status = s.status := by
  unfold State.setNZIfTransferAll; split <;> rfl
@[simp] theorem State.setNZIfTransferAll_config (v : Byte) (s : State) : (s.setNZIfTransferAll v).config = s.config := by
  unfold State.setNZIfTransferAll; split <;> rfl

end Sys2Proof.Machine
end

