-- ==== Sys2Proof/Laws/Ops.lean ====
section
/-! SUPPORT. One lemma per shared operation over memory, flags and operands, saying what it does; later proofs cite
these and do not unfold the operation. -/

namespace Sys2Proof.Machine

/-! ### Memory through State -/

/-- R41, R42: the byte just written reads back. -/
@[simp] theorem State.readByte_writeByte_same (ea : Word) (v : Byte) (s : State) :
    (s.writeByte ea v).readByte ea = v :=
  Memory.read_write_same ..

/-- R42: a write leaves every other byte alone. -/
theorem State.readByte_writeByte_other {ea b : Word} (v : Byte) (s : State) (h : b ≠ ea) :
    (s.writeByte ea v).readByte b = s.readByte b :=
  Memory.read_write_other _ _ (fun hb => h (BitVec.eq_of_toNat_eq hb))

/-- R47: writing one byte keeps the canonical form. -/
theorem State.wf_writeByte (ea : Word) (v : Byte) (s : State) (h : Memory.wf s.mem = true) :
    Memory.wf (s.writeByte ea v).mem = true :=
  Memory.wf_write v ea.isLt h

/-- R101: an exact address in range is the 16-bit address of the same value. -/
theorem checkedAddress_ok {n : Nat} (h : n ≤ 0xFFFF) : checkedAddress n = .ok (BitVec.ofNat 16 n) :=
  if_neg (by omega)

/-- R101, R202: an exact address out of range is the error that records it. -/
theorem checkedAddress_error {n : Nat} (h : n > 0xFFFF) : checkedAddress n = .error (.addressOutOfRange n) :=
  if_pos h

/-- R101: all that checking an address can answer. -/
theorem checkedAddress_cases (n : Nat) :
    (n ≤ 0xFFFF ∧ ∃ ea : Word, checkedAddress n = .ok ea ∧ ea.toNat = n) ∨
      (n > 0xFFFF ∧ checkedAddress n = .error (.addressOutOfRange n)) := by
  by_cases h : n ≤ 0xFFFF
  · exact .inl ⟨h, _, checkedAddress_ok h, by simp; omega⟩
  · exact .inr ⟨by omega, checkedAddress_error (by omega)⟩

/-- R41: MemRead at a 16-bit address is the byte there. -/
@[simp] theorem State.memRead_word (ea : Word) (s : State) : s.memRead ea.toNat = .ok (s.readByte ea) := by
  have h : ea.toNat ≤ 0xFFFF := by have := ea.isLt; omega
  simp [State.memRead, checkedAddress_ok h]

/-! ### Flags -/

/-- R28: bit 5 of P reads 1. -/
@[simp] theorem State.readP_bit5 (s : State) : s.readP.getLsbD 5 = true := by
  simp [State.readP, alwaysOneMask]

/-- R26, R28: P reads as written, with bit 5 at 1. -/
@[simp] theorem State.readP_writeP (v : Byte) (s : State) : (s.writeP v).readP = v ||| alwaysOneMask := by
  simp [State.readP, State.writeP, BitVec.or_assoc]

/-- Two flags stand in two bits (R26). -/
theorem Flag.bit_injective {f g : Flag} (h : f.bit = g.bit) : f = g := by
  cases f <;> cases g <;> first | rfl | exact absurd h (by decide)

theorem Flag.bit_lt (f : Flag) : f.bit < 8 := by cases f <;> decide

/-- The mask of R28 is the bit of the unused flag. -/
theorem alwaysOneMask_bit (f : Flag) : alwaysOneMask.getLsbD f.bit = decide (f = .unused) := by
  cases f <;> rfl

theorem getFlag_putFlag (f g : Flag) (b : Bool) (p : Byte) :
    getFlag g (putFlag f b p) = if g = f then b else getFlag g p := by
  have hlt := Flag.bit_lt g
  unfold getFlag putFlag
  by_cases h : g = f
  · subst h; cases b <;> simp [hlt]
  · have hne : g.bit ≠ f.bit := fun e => h (Flag.bit_injective e)
    cases b <;> simp [hlt, h, hne]

/-- R28: the unused flag reads 1. -/
@[simp] theorem State.flag_unused (s : State) : s.flag .unused = true := State.readP_bit5 s

/-- P as written shows its flags, the unused one apart. -/
theorem State.flag_writeP (v : Byte) (s : State) (f : Flag) :
    (s.writeP v).flag f = if f = .unused then true else getFlag f v := by
  simp only [State.flag, State.readP_writeP, getFlag, BitVec.getLsbD_or, alwaysOneMask_bit]
  by_cases h : f = .unused <;> simp [h]

/-- R8: all that writing one flag does to the flags. -/
theorem State.flag_setFlag (f g : Flag) (b : Bool) (s : State) :
    (s.setFlag f b).flag g = if g = .unused then true else if g = f then b else s.flag g := by
  rw [State.setFlag, State.flag_writeP, getFlag_putFlag]; rfl

/-- R86: all that setNZ does to the flags. -/
theorem State.flag_setNZ (v : Byte) (s : State) (f : Flag) :
    (s.setNZ v).flag f =
      match f with
      | .zero => v == 0
      | .negative => v.getLsbD 7
      | _ => s.flag f := by
  cases f <;> simp [State.setNZ, State.flag_setFlag, computeZeroAndNegative]

/-- R86: setNZ touches no flag but N and Z. -/
theorem State.flag_setNZ_other (v : Byte) (s : State) {f : Flag} (hn : f ≠ .negative) (hz : f ≠ .zero) :
    (s.setNZ v).flag f = s.flag f := by
  cases f <;> first | exact absurd rfl hn | exact absurd rfl hz | simp [State.flag_setNZ]

/-! ### Byte order -/

/-- R62, R63: an operand's two bytes put together are the operand. -/
@[simp] theorem joinBytes_high_low (w : Word) : joinBytes (highByte w) (lowByte w) = w := by
  apply BitVec.eq_of_toNat_eq
  simp [joinBytes, highByte, lowByte]
  omega

/-- R44, R63: `hi * 256 + lo`. -/
@[simp] theorem toNat_joinBytes (hi lo : Byte) : (joinBytes hi lo).toNat = hi.toNat * 256 + lo.toNat := by
  simp [joinBytes]
  omega

/-- R7: zero extension keeps the value. -/
@[simp] theorem toNat_zext16 (b : Byte) : (zext16 b).toNat = b.toNat := by
  have := b.isLt
  simp [zext16]
  omega

/-- R104: bits 7:0 of a zero-extended byte. -/
@[simp] theorem lowByte_zext16 (b : Byte) : lowByte (zext16 b) = b := by
  apply BitVec.eq_of_toNat_eq
  simp [lowByte]

/-- R112: the pointer's two bytes both come from page 0. -/
theorem toNat_readZpPtr (z : Byte) (s : State) :
    (readZpPtr z s).toNat =
      (Memory.read s.mem ((z.toNat + 1) % 256)).toNat * 256 + (Memory.read s.mem z.toNat).toNat := by
  simp [readZpPtr, State.readByte]

/-! ### The shapes of an instruction -/

/-- R81: where the operand resolves, the effect happens with PC past the instruction. -/
theorem withAddress_ok {o : Operand} {s : State} {ea : Word} {effect : Word → State → State}
    (h : resolve o s = .ok ea) : withAddress o effect s = .next (effect ea (s.advance o.length)) := by
  simp only [withAddress, h]

/-- R81: where the data can be read, the effect happens with PC past the instruction. -/
theorem withData_ok {o : Operand} {s : State} {v : Byte} {effect : Byte → State → State}
    (h : operandData o s = .ok v) : withData o effect s = .next (effect v (s.advance o.length)) := by
  simp only [withData, h]

/-- R81, R205: all that an instruction that uses its operand as an address can do. -/
theorem withAddress_cases (o : Operand) (effect : Word → State → State) (s : State) :
    (∃ e, resolve o s = .error e ∧ withAddress o effect s = .next (s.raiseError e)) ∨
      ∃ ea, resolve o s = .ok ea ∧ withAddress o effect s = .next (effect ea (s.advance o.length)) := by
  unfold withAddress
  cases h : resolve o s with
  | error e => exact .inl ⟨e, rfl, rfl⟩
  | ok ea => exact .inr ⟨ea, rfl, rfl⟩

/-- R81, R205: all that an instruction that uses its operand's data can do. -/
theorem withData_cases (o : Operand) (effect : Byte → State → State) (s : State) :
    (∃ e, operandData o s = .error e ∧ withData o effect s = .next (s.raiseError e)) ∨
      ∃ v, operandData o s = .ok v ∧ withData o effect s = .next (effect v (s.advance o.length)) := by
  unfold withData
  cases h : operandData o s with
  | error e => exact .inl ⟨e, rfl, rfl⟩
  | ok v => exact .inr ⟨v, rfl, rfl⟩

/-- R120, R150: an operand's data can be read exactly when it resolves. -/
theorem operandData_error (o : Operand) (s : State) (e : EngineError) :
    operandData o s = .error e ↔ resolve o s = .error e := by
  unfold operandData
  cases resolve o s <;> simp

/-- R202: all the ways an operand can fail to resolve, with the exact address. -/
theorem resolve_error_shape (o : Operand) (s : State) (e : EngineError) (h : resolve o s = .error e) :
    ∃ n, e = .addressOutOfRange n ∧
      ((∃ base : Word, o = .absoluteX base ∧ n = base.toNat + s.x.toNat) ∨
        (∃ base : Word, o = .absoluteY base ∧ n = base.toNat + s.y.toNat) ∨
        (∃ z : Byte, o = .indirectY z ∧ n = (readZpPtr z s).toNat + s.y.toNat) ∨
        (o = .indirect 0xFFFF ∧ n = 0x10000)) ∧ n > 0xFFFF := by
  have key : ∀ n, checkedAddress n = .error e → e = .addressOutOfRange n ∧ n > 0xFFFF := by
    intro n hn
    rcases checkedAddress_cases n with ⟨_, ea, h', _⟩ | ⟨hgt, h'⟩ <;> rw [h'] at hn <;> cases hn
    exact ⟨rfl, hgt⟩
  cases o with
  | absoluteX base => obtain ⟨rfl, hgt⟩ := key _ h; exact ⟨_, rfl, .inl ⟨base, rfl, rfl⟩, hgt⟩
  | absoluteY base => obtain ⟨rfl, hgt⟩ := key _ h; exact ⟨_, rfl, .inr (.inl ⟨base, rfl, rfl⟩), hgt⟩
  | indirectY z => obtain ⟨rfl, hgt⟩ := key _ h; exact ⟨_, rfl, .inr (.inr (.inl ⟨z, rfl, rfl⟩)), hgt⟩
  | indirect p =>
    simp only [resolve, readPointer, State.memRead_word] at h
    unfold State.memRead at h
    rcases checkedAddress_cases (p.toNat + 1) with ⟨_, ea, h', _⟩ | ⟨hgt, h'⟩ <;> rw [h'] at h <;> cases h
    have hp : p = 0xFFFF := BitVec.eq_of_toNat_eq (by have := p.isLt; simp; omega)
    subst hp
    exact ⟨_, rfl, .inr (.inr (.inr ⟨rfl, rfl⟩)), hgt⟩
  | _ => cases h

end Sys2Proof.Machine
end

