-- ==== Sys2Proof/Laws/PerInstr.lean ====
section
/-! SUPPORT. Laws stated of every instruction as syntax, one lemma per constructor. The family TableRow: the instruction
is well formed, its opcode is in the Instruction Table under its own descriptor, and its encoding has its length. -/

namespace Sys2Proof.Laws.TableRow

/-- R65, R66, R61: the opcode that the grid of R67 gives the instruction is looked up to its descriptor, which is
admitted, and the encoding is as long as the mode says. -/
def Statement (i : Instr) : Prop :=
  i.wellFormed = true ∧ lookup i.opcode = some i.descriptor ∧ (encode i).length = i.length

theorem ldaImmediate (op8 : Byte) : Statement (.ldaImmediate op8) := ⟨rfl, rfl, rfl⟩
theorem ldaZeroPage (op8 : Byte) : Statement (.ldaZeroPage op8) := ⟨rfl, rfl, rfl⟩
theorem ldaZeroPageX (op8 : Byte) : Statement (.ldaZeroPageX op8) := ⟨rfl, rfl, rfl⟩
theorem ldaAbsolute (op16 : Word) : Statement (.ldaAbsolute op16) := ⟨rfl, rfl, rfl⟩
theorem ldaAbsoluteX (op16 : Word) : Statement (.ldaAbsoluteX op16) := ⟨rfl, rfl, rfl⟩
theorem ldaAbsoluteY (op16 : Word) : Statement (.ldaAbsoluteY op16) := ⟨rfl, rfl, rfl⟩
theorem ldaIndirectX (op8 : Byte) : Statement (.ldaIndirectX op8) := ⟨rfl, rfl, rfl⟩
theorem ldaIndirectY (op8 : Byte) : Statement (.ldaIndirectY op8) := ⟨rfl, rfl, rfl⟩
theorem ldxImmediate (op8 : Byte) : Statement (.ldxImmediate op8) := ⟨rfl, rfl, rfl⟩
theorem ldxZeroPage (op8 : Byte) : Statement (.ldxZeroPage op8) := ⟨rfl, rfl, rfl⟩
theorem ldxZeroPageY (op8 : Byte) : Statement (.ldxZeroPageY op8) := ⟨rfl, rfl, rfl⟩
theorem ldxAbsolute (op16 : Word) : Statement (.ldxAbsolute op16) := ⟨rfl, rfl, rfl⟩
theorem ldxAbsoluteY (op16 : Word) : Statement (.ldxAbsoluteY op16) := ⟨rfl, rfl, rfl⟩
theorem ldyImmediate (op8 : Byte) : Statement (.ldyImmediate op8) := ⟨rfl, rfl, rfl⟩
theorem ldyZeroPage (op8 : Byte) : Statement (.ldyZeroPage op8) := ⟨rfl, rfl, rfl⟩
theorem ldyZeroPageX (op8 : Byte) : Statement (.ldyZeroPageX op8) := ⟨rfl, rfl, rfl⟩
theorem ldyAbsolute (op16 : Word) : Statement (.ldyAbsolute op16) := ⟨rfl, rfl, rfl⟩
theorem ldyAbsoluteX (op16 : Word) : Statement (.ldyAbsoluteX op16) := ⟨rfl, rfl, rfl⟩
theorem staZeroPage (op8 : Byte) : Statement (.staZeroPage op8) := ⟨rfl, rfl, rfl⟩
theorem staZeroPageX (op8 : Byte) : Statement (.staZeroPageX op8) := ⟨rfl, rfl, rfl⟩
theorem staAbsolute (op16 : Word) : Statement (.staAbsolute op16) := ⟨rfl, rfl, rfl⟩
theorem staAbsoluteX (op16 : Word) : Statement (.staAbsoluteX op16) := ⟨rfl, rfl, rfl⟩
theorem staAbsoluteY (op16 : Word) : Statement (.staAbsoluteY op16) := ⟨rfl, rfl, rfl⟩
theorem staIndirectX (op8 : Byte) : Statement (.staIndirectX op8) := ⟨rfl, rfl, rfl⟩
theorem staIndirectY (op8 : Byte) : Statement (.staIndirectY op8) := ⟨rfl, rfl, rfl⟩
theorem stxZeroPage (op8 : Byte) : Statement (.stxZeroPage op8) := ⟨rfl, rfl, rfl⟩
theorem stxZeroPageY (op8 : Byte) : Statement (.stxZeroPageY op8) := ⟨rfl, rfl, rfl⟩
theorem stxAbsolute (op16 : Word) : Statement (.stxAbsolute op16) := ⟨rfl, rfl, rfl⟩
theorem styZeroPage (op8 : Byte) : Statement (.styZeroPage op8) := ⟨rfl, rfl, rfl⟩
theorem styZeroPageX (op8 : Byte) : Statement (.styZeroPageX op8) := ⟨rfl, rfl, rfl⟩
theorem styAbsolute (op16 : Word) : Statement (.styAbsolute op16) := ⟨rfl, rfl, rfl⟩
theorem tax : Statement .tax := ⟨rfl, rfl, rfl⟩
theorem tay : Statement .tay := ⟨rfl, rfl, rfl⟩
theorem txa : Statement .txa := ⟨rfl, rfl, rfl⟩
theorem tya : Statement .tya := ⟨rfl, rfl, rfl⟩
theorem tsx : Statement .tsx := ⟨rfl, rfl, rfl⟩
theorem txs : Statement .txs := ⟨rfl, rfl, rfl⟩
theorem oraImmediate (op8 : Byte) : Statement (.oraImmediate op8) := ⟨rfl, rfl, rfl⟩
theorem oraZeroPage (op8 : Byte) : Statement (.oraZeroPage op8) := ⟨rfl, rfl, rfl⟩
theorem oraZeroPageX (op8 : Byte) : Statement (.oraZeroPageX op8) := ⟨rfl, rfl, rfl⟩
theorem oraAbsolute (op16 : Word) : Statement (.oraAbsolute op16) := ⟨rfl, rfl, rfl⟩
theorem oraAbsoluteX (op16 : Word) : Statement (.oraAbsoluteX op16) := ⟨rfl, rfl, rfl⟩
theorem oraAbsoluteY (op16 : Word) : Statement (.oraAbsoluteY op16) := ⟨rfl, rfl, rfl⟩
theorem oraIndirectX (op8 : Byte) : Statement (.oraIndirectX op8) := ⟨rfl, rfl, rfl⟩
theorem oraIndirectY (op8 : Byte) : Statement (.oraIndirectY op8) := ⟨rfl, rfl, rfl⟩
theorem incZeroPage (op8 : Byte) : Statement (.incZeroPage op8) := ⟨rfl, rfl, rfl⟩
theorem incZeroPageX (op8 : Byte) : Statement (.incZeroPageX op8) := ⟨rfl, rfl, rfl⟩
theorem incAbsolute (op16 : Word) : Statement (.incAbsolute op16) := ⟨rfl, rfl, rfl⟩
theorem incAbsoluteX (op16 : Word) : Statement (.incAbsoluteX op16) := ⟨rfl, rfl, rfl⟩
theorem inx : Statement .inx := ⟨rfl, rfl, rfl⟩
theorem iny : Statement .iny := ⟨rfl, rfl, rfl⟩
theorem pha : Statement .pha := ⟨rfl, rfl, rfl⟩
theorem php : Statement .php := ⟨rfl, rfl, rfl⟩
theorem pla : Statement .pla := ⟨rfl, rfl, rfl⟩
theorem plp : Statement .plp := ⟨rfl, rfl, rfl⟩
theorem jmpAbsolute (op16 : Word) : Statement (.jmpAbsolute op16) := ⟨rfl, rfl, rfl⟩
theorem jmpIndirect (op16 : Word) : Statement (.jmpIndirect op16) := ⟨rfl, rfl, rfl⟩
theorem clc : Statement .clc := ⟨rfl, rfl, rfl⟩
theorem cld : Statement .cld := ⟨rfl, rfl, rfl⟩
theorem cli : Statement .cli := ⟨rfl, rfl, rfl⟩
theorem clv : Statement .clv := ⟨rfl, rfl, rfl⟩
theorem brk : Statement .brk := ⟨rfl, rfl, rfl⟩

end Sys2Proof.Laws.TableRow
end

