-- ==== Sys2Proof/Laws/Decode.lean ====
section
/-! SUPPORT. What lookup, build, decode and the fetch can answer, each said once. -/

namespace Sys2Proof

/-- R62: the two bytes of a joined operand. -/
@[simp] theorem lowByte_joinBytes (hi lo : Byte) : lowByte (joinBytes hi lo) = lo := by
  apply BitVec.eq_of_toNat_eq
  simp [lowByte, joinBytes]
  omega

@[simp] theorem highByte_joinBytes (hi lo : Byte) : highByte (joinBytes hi lo) = hi := by
  apply BitVec.eq_of_toNat_eq
  simp [highByte, joinBytes]
  omega

/-- R61: a mode has 0, 1 or 2 operand bytes. -/
theorem Mode.operandBytes_cases (m : Mode) : m.operandBytes = 0 ∨ m.operandBytes = 1 ∨ m.operandBytes = 2 := by
  cases m <;> simp [Mode.operandBytes]

/-- What build gives has the descriptor it was asked for and the operand bytes its mode has. -/
theorem build_sound {d : Descriptor} {lo hi : Byte} {i : Instr} (h : build d lo hi = some i) :
    i.descriptor = d ∧ i.operand.bytes = [lo, hi].take d.mode.operandBytes := by
  obtain ⟨mn, mode⟩ := d
  cases mn <;> cases mode <;> simp [build] at h <;> subst h <;>
    first
    | exact ⟨rfl, rfl⟩
    | exact ⟨rfl, by simp [Instr.operand, Operand.bytes, Mode.operandBytes]⟩

/-- R66: an opcode that looks up to a descriptor stands in a row of the table with it. -/
theorem mem_table_of_lookup {opcode : Byte} {d : Descriptor} (h : lookup opcode = some d) :
    (opcode, d) ∈ instructionTable := by
  unfold lookup at h
  generalize instructionTable = rows at h
  induction rows with
  | nil => cases h
  | cons r rows ih =>
    rw [List.lookup_cons] at h
    split at h
    · rename_i heq
      cases h
      rw [beq_iff_eq] at heq
      subst heq
      exact List.mem_cons_self
    · exact List.mem_cons_of_mem _ (ih h)

/-- R65, R66: every row of the table is looked up to its own descriptor and builds an instruction with its opcode. -/
theorem table_rows_build : ∀ r ∈ instructionTable,
    ∀ lo hi, ∃ i, build r.2 lo hi = some i ∧ i.opcode = r.1 := by
  simp only [instructionTable, List.forall_mem_append, loadRows, storeRows, transferRows, orRows, incrementRows,
    stackRows, controlRows, List.forall_mem_cons, List.not_mem_nil, false_imp_iff, implies_true, and_true]
  repeat' apply And.intro
  all_goals exact fun lo hi => ⟨_, rfl, rfl⟩

/-- An admitted opcode builds an instruction from any operand bytes (R68). -/
theorem build_of_lookup {opcode : Byte} {d : Descriptor} (h : lookup opcode = some d) (lo hi : Byte) :
    ∃ i, build d lo hi = some i ∧ i.opcode = opcode :=
  table_rows_build _ (mem_table_of_lookup h) lo hi

/-- An absent opcode has no instruction, whatever follows it (R68). -/
theorem decode_absent {opcode : Byte} (h : lookup opcode = none) (rest : List Byte) :
    decode (opcode :: rest) = .error (.unknownOpcode opcode) := by
  simp only [decode, h]

/-- All that decoding three bytes can answer: an admitted opcode gives its instruction, from as many operand bytes as
its mode has, and the same instruction when only those bytes are given (R69). -/
theorem decode_admitted {opcode : Byte} {d : Descriptor} (h : lookup opcode = some d) (lo hi : Byte) :
    ∃ i, i.descriptor = d ∧ i.opcode = opcode ∧ i.operand.bytes = [lo, hi].take d.mode.operandBytes ∧
      decode [opcode, lo, hi] = .ok (i, [lo, hi].drop d.mode.operandBytes) ∧
      decode (opcode :: [lo, hi].take d.mode.operandBytes) = .ok (i, []) := by
  rcases d.mode.operandBytes_cases with hm | hm | hm
  · obtain ⟨i, hb, ho⟩ := build_of_lookup h 0 0
    obtain ⟨hd, hby⟩ := build_sound hb
    refine ⟨i, hd, ho, ?_, ?_, ?_⟩ <;> simp only [hby, decode, h, hm, takeOperands, hb, List.take_zero, List.drop_zero]
  · obtain ⟨i, hb, ho⟩ := build_of_lookup h lo 0
    obtain ⟨hd, hby⟩ := build_sound hb
    refine ⟨i, hd, ho, ?_, ?_, ?_⟩ <;>
      simp only [hby, decode, h, hm, takeOperands, hb, List.take_succ_cons, List.take_zero, List.drop_succ_cons,
        List.drop_zero]
  · obtain ⟨i, hb, ho⟩ := build_of_lookup h lo hi
    obtain ⟨hd, hby⟩ := build_sound hb
    refine ⟨i, hd, ho, ?_, ?_, ?_⟩ <;>
      simp only [hby, decode, h, hm, takeOperands, hb, List.take_succ_cons, List.take_zero, List.drop_succ_cons,
        List.drop_zero]

namespace Machine

/-- R69, R83: an absent opcode has no operand byte fetched. -/
theorem State.fetchBytes_absent {s : State} (h : lookup s.opcodeAtPC = none) : s.fetchBytes = [s.opcodeAtPC] := by
  simp only [State.fetchBytes, fetchLength, h]
  rfl

/-- R82: the first byte fetched is the opcode at PC. -/
theorem State.head_fetchBytes (s : State) : s.fetchBytes.head? = some s.opcodeAtPC := by
  have h : ∃ n, fetchLength s.opcodeAtPC = n + 1 := by
    unfold fetchLength
    split
    · exact ⟨0, rfl⟩
    · exact ⟨_, Nat.add_comm ..⟩
  obtain ⟨n, h⟩ := h
  rw [State.fetchBytes, h]
  rfl

/-- R102: an admitted opcode has the operand bytes of its mode fetched, at addresses modulo 65536. -/
theorem State.fetchBytes_admitted {s : State} {d : Descriptor} (h : lookup s.opcodeAtPC = some d) :
    s.fetchBytes =
      s.opcodeAtPC :: [s.readByte (s.pc + 1), s.readByte (s.pc + 2)].take d.mode.operandBytes := by
  have e : s.pc + 1 + 1 = s.pc + 2 := by rw [BitVec.add_assoc]; rfl
  simp only [State.fetchBytes, fetchLength, h, Mode.length]
  rcases d.mode.operandBytes_cases with hm | hm | hm <;> rw [hm] <;>
    simp only [State.readBytes, List.take_zero, List.take_succ_cons, e] <;> rfl

end Machine

end Sys2Proof
end

