-- ==== Sys2Proof/Laws/Exec.lean ====
section
/-! SUPPORT. exec by mnemonic: every form of a mnemonic is one shared shape on its operand, so that a proof over all
forms splits over 26 mnemonics and cites these. -/

namespace Sys2Proof.Machine

variable {i : Instr}

theorem exec_lda (h : i.mnemonic = .lda) (s : State) : exec i s = withData i.operand loadA s := by
  cases i <;> first | rfl | exact Mnemonic.noConfusion h

theorem exec_ldx (h : i.mnemonic = .ldx) (s : State) : exec i s = withData i.operand loadX s := by
  cases i <;> first | rfl | exact Mnemonic.noConfusion h

theorem exec_ldy (h : i.mnemonic = .ldy) (s : State) : exec i s = withData i.operand loadY s := by
  cases i <;> first | rfl | exact Mnemonic.noConfusion h

theorem exec_ora (h : i.mnemonic = .ora) (s : State) : exec i s = withData i.operand orA s := by
  cases i <;> first | rfl | exact Mnemonic.noConfusion h

theorem exec_sta (h : i.mnemonic = .sta) (s : State) : exec i s = withAddress i.operand storeA s := by
  cases i <;> first | rfl | exact Mnemonic.noConfusion h

theorem exec_stx (h : i.mnemonic = .stx) (s : State) : exec i s = withAddress i.operand storeX s := by
  cases i <;> first | rfl | exact Mnemonic.noConfusion h

theorem exec_sty (h : i.mnemonic = .sty) (s : State) : exec i s = withAddress i.operand storeY s := by
  cases i <;> first | rfl | exact Mnemonic.noConfusion h

theorem exec_inc (h : i.mnemonic = .inc) (s : State) : exec i s = withAddress i.operand incrementByte s := by
  cases i <;> first | rfl | exact Mnemonic.noConfusion h

theorem exec_jmp (h : i.mnemonic = .jmp) (s : State) : exec i s = withAddress i.operand jump s := by
  cases i <;> first | rfl | exact Mnemonic.noConfusion h

theorem exec_tax (h : i.mnemonic = .tax) (s : State) : exec i s = implied transferAX s := by
  cases i <;> first | rfl | exact Mnemonic.noConfusion h

theorem exec_tay (h : i.mnemonic = .tay) (s : State) : exec i s = implied transferAY s := by
  cases i <;> first | rfl | exact Mnemonic.noConfusion h

theorem exec_txa (h : i.mnemonic = .txa) (s : State) : exec i s = implied transferXA s := by
  cases i <;> first | rfl | exact Mnemonic.noConfusion h

theorem exec_tya (h : i.mnemonic = .tya) (s : State) : exec i s = implied transferYA s := by
  cases i <;> first | rfl | exact Mnemonic.noConfusion h

theorem exec_tsx (h : i.mnemonic = .tsx) (s : State) : exec i s = implied transferSX s := by
  cases i <;> first | rfl | exact Mnemonic.noConfusion h

theorem exec_txs (h : i.mnemonic = .txs) (s : State) : exec i s = implied transferXS s := by
  cases i <;> first | rfl | exact Mnemonic.noConfusion h

theorem exec_inx (h : i.mnemonic = .inx) (s : State) : exec i s = implied incrementX s := by
  cases i <;> first | rfl | exact Mnemonic.noConfusion h

theorem exec_iny (h : i.mnemonic = .iny) (s : State) : exec i s = implied incrementY s := by
  cases i <;> first | rfl | exact Mnemonic.noConfusion h

theorem exec_pha (h : i.mnemonic = .pha) (s : State) : exec i s = implied pushA s := by
  cases i <;> first | rfl | exact Mnemonic.noConfusion h

theorem exec_php (h : i.mnemonic = .php) (s : State) : exec i s = implied pushP s := by
  cases i <;> first | rfl | exact Mnemonic.noConfusion h

theorem exec_pla (h : i.mnemonic = .pla) (s : State) : exec i s = implied pullA s := by
  cases i <;> first | rfl | exact Mnemonic.noConfusion h

theorem exec_plp (h : i.mnemonic = .plp) (s : State) : exec i s = implied pullP s := by
  cases i <;> first | rfl | exact Mnemonic.noConfusion h

theorem exec_clc (h : i.mnemonic = .clc) (s : State) : exec i s = implied (State.clearFlag .carry) s := by
  cases i <;> first | rfl | exact Mnemonic.noConfusion h

theorem exec_cld (h : i.mnemonic = .cld) (s : State) : exec i s = implied (State.clearFlag .decimal) s := by
  cases i <;> first | rfl | exact Mnemonic.noConfusion h

theorem exec_cli (h : i.mnemonic = .cli) (s : State) : exec i s = implied (State.clearFlag .interruptDisable) s := by
  cases i <;> first | rfl | exact Mnemonic.noConfusion h

theorem exec_clv (h : i.mnemonic = .clv) (s : State) : exec i s = implied (State.clearFlag .overflow) s := by
  cases i <;> first | rfl | exact Mnemonic.noConfusion h

theorem exec_brk (h : i.mnemonic = .brk) (s : State) : exec i s = implied State.halt s := by
  cases i <;> first | rfl | exact Mnemonic.noConfusion h

/-- What holds of the error outcome and of the effect on the resolved address holds of the next state (R81, R205). -/
theorem withAddress_next {o : Operand} {effect : Word → State → State} {s t : State} {Q : State → Prop}
    (h : withAddress o effect s = .next t) (error : ∀ e, resolve o s = .error e → Q (s.raiseError e))
    (done : ∀ ea, resolve o s = .ok ea → Q (effect ea (s.advance o.length))) : Q t := by
  rcases withAddress_cases o effect s with ⟨e, hr, h'⟩ | ⟨ea, hr, h'⟩ <;> rw [h'] at h <;> cases h
  · exact error e hr
  · exact done ea hr

/-- What holds of the error outcome and of the effect on the data holds of the next state (R81, R205). -/
theorem withData_next {o : Operand} {effect : Byte → State → State} {s t : State} {Q : State → Prop}
    (h : withData o effect s = .next t) (error : ∀ e, resolve o s = .error e → Q (s.raiseError e))
    (done : ∀ v, operandData o s = .ok v → Q (effect v (s.advance o.length))) : Q t := by
  rcases withData_cases o effect s with ⟨e, hr, h'⟩ | ⟨v, hr, h'⟩ <;> rw [h'] at h <;> cases h
  · exact error e ((operandData_error ..).mp hr)
  · exact done v hr

/-- What holds of an Implied instruction's effect holds of the next state (R103). -/
theorem implied_next {effect : State → State} {s t : State} {Q : State → Prop} (h : implied effect s = .next t)
    (done : Q (effect (s.advance Operand.implied.length))) : Q t := by
  cases h
  exact done

end Sys2Proof.Machine
end

