-- ==== Sys2Proof/Laws/Safety.lean ====
section
/-! SUPPORT. The terms of Safety.lean met by the shared operations. -/

namespace Sys2Proof.Machine

/-- R120, R150: the data of an operand is what the resolver's data read answers. -/
theorem operandData_of_dataIs {o : Operand} {s : State} {v : Byte} (h : DataIs o s v) : operandData o s = .ok v := by
  rcases h with rfl | ⟨hm, ea, hr, hv⟩
  · simp [operandData, resolve, Operand.mode]
  · simp only [State.memRead_word] at hv
    cases hv
    simp only [operandData, hr, hm, if_false]

/-- R24: PC moved on by an instruction's length is past it. -/
theorem pcPast_of_advance {i : Instr} {s t : State} (h : t.pc = (s.advance i.length).pc) : PCPast i s t := by
  simp only [PCPast, h, State.advance, State.writePC, BitVec.toNat_add, BitVec.toNat_ofNat]
  omega

/-- R86: setNZ shows its value. -/
theorem showsNZ_setNZ (v : Byte) (s : State) : ShowsNZ v (s.setNZ v) := by
  constructor <;> simp [State.flag_setNZ]

/-- R42: writing one byte writes only it. -/
theorem writesOnly_writeByte (ea : Word) (v : Byte) (s : State) : WritesOnly ea v s (s.writeByte ea v) :=
  ⟨State.readByte_writeByte_same .., fun _ h => State.readByte_writeByte_other v s h⟩

/-- R64: the bytes at PC decode to one instruction only. -/
theorem fetches_unique {s : State} {i j : Instr} (hi : Fetches s i) (hj : Fetches s j) : i = j := by
  obtain ⟨_, hi⟩ := hi
  obtain ⟨_, hj⟩ := hj
  rw [hi] at hj
  cases hj
  rfl

end Sys2Proof.Machine
end

