-- ==== Sys2Proof/Tests/Slice0.lean ====
section
/-! SUPPORT. Tests: words written out in bits from the opcode table's encodings; terms the checks refuse; one step for
each instruction with the results of 95_test_vectors.md; and a witness for each statement that has hypotheses. -/

namespace Sys2Proof.Tests

open Sys2Proof Sys2Proof.Machine

/-! ### Decode: opcode bits from the "encoding" column of spec/opcode_table.json, operand bytes from R62, R63 -/

/-- R62, R63, R66 (R120). -/
theorem test_decode_loads_lda :
    decode [0b10101001, 0b10110010] = .ok (.ldaImmediate 0xB2, []) ∧
      decode [0b10100101, 0b10110010] = .ok (.ldaZeroPage 0xB2, []) ∧
      decode [0b10110101, 0b10110010] = .ok (.ldaZeroPageX 0xB2, []) ∧
      decode [0b10101101, 0b00110100, 0b10010010] = .ok (.ldaAbsolute 0x9234, []) ∧
      decode [0b10111101, 0b00110100, 0b10010010] = .ok (.ldaAbsoluteX 0x9234, []) ∧
      decode [0b10111001, 0b00110100, 0b10010010] = .ok (.ldaAbsoluteY 0x9234, []) ∧
      decode [0b10100001, 0b10110010] = .ok (.ldaIndirectX 0xB2, []) ∧
      decode [0b10110001, 0b10110010] = .ok (.ldaIndirectY 0xB2, []) := by
  decide

/-- R62, R63, R66 (R121, R122). -/
theorem test_decode_loads_ldx_ldy :
    decode [0b10100010, 0b10110010] = .ok (.ldxImmediate 0xB2, []) ∧
      decode [0b10100110, 0b10110010] = .ok (.ldxZeroPage 0xB2, []) ∧
      decode [0b10110110, 0b10110010] = .ok (.ldxZeroPageY 0xB2, []) ∧
      decode [0b10101110, 0b00110100, 0b10010010] = .ok (.ldxAbsolute 0x9234, []) ∧
      decode [0b10111110, 0b00110100, 0b10010010] = .ok (.ldxAbsoluteY 0x9234, []) ∧
      decode [0b10100000, 0b10110010] = .ok (.ldyImmediate 0xB2, []) ∧
      decode [0b10100100, 0b10110010] = .ok (.ldyZeroPage 0xB2, []) ∧
      decode [0b10110100, 0b10110010] = .ok (.ldyZeroPageX 0xB2, []) ∧
      decode [0b10101100, 0b00110100, 0b10010010] = .ok (.ldyAbsolute 0x9234, []) ∧
      decode [0b10111100, 0b00110100, 0b10010010] = .ok (.ldyAbsoluteX 0x9234, []) := by
  decide

/-- R62, R63, R66 (R123). -/
theorem test_decode_stores_sta :
    decode [0b10000101, 0b10110010] = .ok (.staZeroPage 0xB2, []) ∧
      decode [0b10010101, 0b10110010] = .ok (.staZeroPageX 0xB2, []) ∧
      decode [0b10001101, 0b00110100, 0b10010010] = .ok (.staAbsolute 0x9234, []) ∧
      decode [0b10011101, 0b00110100, 0b10010010] = .ok (.staAbsoluteX 0x9234, []) ∧
      decode [0b10011001, 0b00110100, 0b10010010] = .ok (.staAbsoluteY 0x9234, []) ∧
      decode [0b10000001, 0b10110010] = .ok (.staIndirectX 0xB2, []) ∧
      decode [0b10010001, 0b10110010] = .ok (.staIndirectY 0xB2, []) := by
  decide

/-- R62, R63, R66 (R124, R125). -/
theorem test_decode_stores_stx_sty :
    decode [0b10000110, 0b10110010] = .ok (.stxZeroPage 0xB2, []) ∧
      decode [0b10010110, 0b10110010] = .ok (.stxZeroPageY 0xB2, []) ∧
      decode [0b10001110, 0b00110100, 0b10010010] = .ok (.stxAbsolute 0x9234, []) ∧
      decode [0b10000100, 0b10110010] = .ok (.styZeroPage 0xB2, []) ∧
      decode [0b10010100, 0b10110010] = .ok (.styZeroPageX 0xB2, []) ∧
      decode [0b10001100, 0b00110100, 0b10010010] = .ok (.styAbsolute 0x9234, []) := by
  decide

/-- R62, R63, R66 (R140 to R145). -/
theorem test_decode_transfers :
    decode [0b10101010] = .ok (.tax, []) ∧
      decode [0b10101000] = .ok (.tay, []) ∧
      decode [0b10001010] = .ok (.txa, []) ∧
      decode [0b10011000] = .ok (.tya, []) ∧
      decode [0b10111010] = .ok (.tsx, []) ∧
      decode [0b10011010] = .ok (.txs, []) := by
  decide

/-- R62, R63, R66 (R150). -/
theorem test_decode_ora :
    decode [0b00001001, 0b10110010] = .ok (.oraImmediate 0xB2, []) ∧
      decode [0b00000101, 0b10110010] = .ok (.oraZeroPage 0xB2, []) ∧
      decode [0b00010101, 0b10110010] = .ok (.oraZeroPageX 0xB2, []) ∧
      decode [0b00001101, 0b00110100, 0b10010010] = .ok (.oraAbsolute 0x9234, []) ∧
      decode [0b00011101, 0b00110100, 0b10010010] = .ok (.oraAbsoluteX 0x9234, []) ∧
      decode [0b00011001, 0b00110100, 0b10010010] = .ok (.oraAbsoluteY 0x9234, []) ∧
      decode [0b00000001, 0b10110010] = .ok (.oraIndirectX 0xB2, []) ∧
      decode [0b00010001, 0b10110010] = .ok (.oraIndirectY 0xB2, []) := by
  decide

/-- R62, R63, R66 (R151 to R153). -/
theorem test_decode_increments :
    decode [0b11100110, 0b10110010] = .ok (.incZeroPage 0xB2, []) ∧
      decode [0b11110110, 0b10110010] = .ok (.incZeroPageX 0xB2, []) ∧
      decode [0b11101110, 0b00110100, 0b10010010] = .ok (.incAbsolute 0x9234, []) ∧
      decode [0b11111110, 0b00110100, 0b10010010] = .ok (.incAbsoluteX 0x9234, []) ∧
      decode [0b11101000] = .ok (.inx, []) ∧
      decode [0b11001000] = .ok (.iny, []) := by
  decide

/-- R62, R63, R66 (R160 to R163). -/
theorem test_decode_stack :
    decode [0b01001000] = .ok (.pha, []) ∧
      decode [0b00001000] = .ok (.php, []) ∧
      decode [0b01101000] = .ok (.pla, []) ∧
      decode [0b00101000] = .ok (.plp, []) := by
  decide

/-- R62, R63, R66 (R170 to R176). -/
theorem test_decode_jumps_clears_halt :
    decode [0b01001100, 0b00110100, 0b10010010] = .ok (.jmpAbsolute 0x9234, []) ∧
      decode [0b01101100, 0b00110100, 0b10010010] = .ok (.jmpIndirect 0x9234, []) ∧
      decode [0b00011000] = .ok (.clc, []) ∧
      decode [0b11011000] = .ok (.cld, []) ∧
      decode [0b01011000] = .ok (.cli, []) ∧
      decode [0b10111000] = .ok (.clv, []) ∧
      decode [0b00000000] = .ok (.brk, []) := by
  decide

/-- R61, R63: the table's numbering, low byte of the operand in bits 15 to 8. -/
theorem test_decode_table_word :
    decodeTableWord 24 0b000000101111111110111101 = some (.ldaAbsoluteX 0x02FF) ∧
      decodeTableWord 8 0b11101010 = none := by
  decide

/-- R68: bytes of the 6502 that CORE does not have (NOP, ADC, JSR, and an undocumented one) are rejected by name. -/
theorem test_decode_absent :
    decode [0xEA] = .error (.unknownOpcode 0xEA) ∧ decode [0x69, 0x01] = .error (.unknownOpcode 0x69) ∧
      decode [0x20, 0x00, 0x80] = .error (.unknownOpcode 0x20) ∧ decode [0x02] = .error (.unknownOpcode 0x02) := by
  decide

/-- A word that ends before its operand does is not an instruction (log 8). -/
theorem test_decode_truncated :
    decode [] = .error .truncated ∧ decode [0xA9] = .error .truncated ∧ decode [0xAD, 0x34] = .error .truncated := by
  decide

/-! ### The checks refuse ill-formed terms -/

/-- R66: there is no Immediate store, no INC of a register, no ZeroPageX form of LDX, no Indirect form but JMP's. -/
theorem test_admitted_refuses :
    (Descriptor.mk .sta .immediate).admitted = false ∧ (Descriptor.mk .inc .implied).admitted = false ∧
      (Descriptor.mk .ldx .zeroPageX).admitted = false ∧ (Descriptor.mk .lda .indirect).admitted = false ∧
      (Descriptor.mk .jmp .absolute).admitted = true := by
  decide

/-- R66: the forms the check admits are 62. -/
theorem test_admitted_count :
    (instructionTable.filter fun r => r.2.admitted).length = 62 ∧
      ([Mnemonic.lda, .ldx, .ldy, .sta, .stx, .sty, .tax, .tay, .txa, .tya, .tsx, .txs, .ora, .inc, .inx, .iny,
        .pha, .php, .pla, .plp, .jmp, .clc, .cld, .cli, .clv, .brk].map fun m => m.modes.length).sum = 62 := by
  decide

/-- R66: rows of the table are accepted. -/
theorem test_wellFormed_accepts : (Instr.staIndirectY 0x10).wellFormed = true ∧ Instr.brk.wellFormed = true := by
  decide

/-- R5: a STACK_BASE that is not of the form 0xNNFF is refused. -/
theorem test_config_refuses :
    (Config.mk 0x8000 0x0180 false).wellFormed = false ∧ (Config.mk 0x8000 0x0100 true).wellFormed = false ∧
      (Config.mk 0x0000 0xFFFF true).wellFormed = true := by
  decide

/-- Log 9: a memory out of order, with an address twice, with an entry equal to what an unlisted address reads as, or
with an address past 0xFFFF is refused. -/
theorem test_memory_refuses :
    Memory.wf [(2, 1), (1, 1)] = false ∧ Memory.wf [(1, 1), (1, 2)] = false ∧ Memory.wf [(1, 0)] = false ∧
      Memory.wf [(65536, 1)] = false ∧ Memory.wf [(0, 1), (65535, 2)] = true := by
  decide

/-! ### One step: start state, bytes at 0x8000 and end state as 95_test_vectors.md has them -/

/-- The start of a vector: the default parameters, which are the vectors' premises, and the draws it names. -/
def start (l : Launch) : State := State.construct Config.default l

/-- The same with TRANSFER_NZ_ALL true. -/
def startAll (l : Launch) : State := State.construct { Config.default with transferNZAll := true } l

/-- The next state an outcome holds. -/
def nextOf : Host.Outcome State Fault Refusal → Option State
  | .next t => some t
  | .fault _ => none
  | .refused _ => none

theorem eq_next {o : Host.Outcome State Fault Refusal} {t : State} (h : nextOf o = some t) : o = .next t := by
  cases o <;> cases h
  rfl

/-- The state after one step with `bytes` at PC. -/
def after (s : State) (bytes : List Byte) : State := stepState (State.storeBytes bytes s.pc s)

/-- LS3: N set, Z clear, C and V unchanged. -/
theorem test_lda_immediate :
    (after (start { Launch.zero with p := 0x43 }) [0xA9, 0xFF] |>
      fun t => (t.a, t.readP, t.pc)) =
      (0xFF, 0xE1, 0x8002) := by
  decide

/-- AM1. -/
theorem test_lda_zeroPage :
    (after (start { Launch.zero with mem := [(0x01, 0x2A)] }) [0xA5, 0x01] |>
      fun t => (t.a, t.pc)) =
      (0x2A, 0x8002) := by
  decide

/-- AM2: the index wraps in page 0. -/
theorem test_lda_zeroPageX :
    (after (start { Launch.zero with x := 0x01, mem := [(0x00, 0x77)] }) [0xB5, 0xFF] |>
      fun t => (t.a, t.pc)) =
      (0x77, 0x8002) := by
  decide

/-- AM4. -/
theorem test_lda_absolute :
    (after (start { Launch.zero with a := 0x05 }) [0xAD, 0x34, 0x12] |>
      fun t => (t.a, t.readP, t.pc)) =
      (0x00, 0x22, 0x8003) := by
  decide

/-- AM5: the index carries into the high byte. -/
theorem test_lda_absoluteX :
    (after (start { Launch.zero with x := 0x01, mem := [(0x0100, 0x5A)] }) [0xBD, 0xFF, 0x00] |>
      fun t => (t.a, t.pc)) =
      (0x5A, 0x8003) := by
  decide

/-- AM8: the largest payload. -/
theorem test_lda_absoluteX_error :
    (after (start { Launch.zero with a := 0x33, x := 0xFF }) [0xBD, 0xFF, 0xFF] |>
      fun t => (t.status, t.a, t.pc)) =
      (.error (.addressOutOfRange 0x100FE), 0x33, 0x8001) := by
  decide

/-- AM9. -/
theorem test_lda_absoluteY :
    (after (start { Launch.zero with y := 0x20, mem := [(0x1310, 0x80)] }) [0xB9, 0xF0, 0x12] |>
      fun t => (t.a, t.readP, t.pc)) =
      (0x80, 0xA0, 0x8003) := by
  decide

/-- AM10. -/
theorem test_lda_absoluteY_error :
    (after (start { Launch.zero with y := 0x10 }) [0xB9, 0xF0, 0xFF] |>
      fun t => (t.status, t.pc)) =
      (.error (.addressOutOfRange 0x10000), 0x8001) := by
  decide

/-- AM13: the pointer wraps in page 0. -/
theorem test_lda_indirectX :
    (after (start { Launch.zero with x := 0x01, mem := [(0x00, 0x90), (0x9000, 0x11)] }) [0xA1, 0xFE] |>
      fun t => (t.a, t.pc)) =
      (0x11, 0x8002) := by
  decide

/-- LS5. -/
theorem test_lda_indirectY :
    (after (start { Launch.zero with y := 0x04, mem := [(0x21, 0x30), (0x3004, 0x99)] }) [0xB1, 0x20] |>
      fun t => (t.a, t.readP, t.pc)) =
      (0x99, 0xA0, 0x8002) := by
  decide

/-- AM17. -/
theorem test_lda_indirectY_error :
    (after (start { Launch.zero with y := 0x01, mem := [(0x10, 0xFF), (0x11, 0xFF)] }) [0xB1, 0x10] |>
      fun t => (t.status, t.pc)) =
      (.error (.addressOutOfRange 0x10000), 0x8001) := by
  decide

/-- L1-1. -/
theorem test_ldx_immediate :
    (after (start Launch.zero) [0xA2, 0x80] |>
      fun t => (t.x, t.readP, t.pc)) =
      (0x80, 0xA0, 0x8002) := by
  decide

/-- R105, R121. -/
theorem test_ldx_zeroPage :
    (after (start { Launch.zero with mem := [(0x40, 0x07)] }) [0xA6, 0x40] |>
      fun t => (t.x, t.pc)) =
      (0x07, 0x8002) := by
  decide

/-- AM3: indexed by Y. -/
theorem test_ldx_zeroPageY :
    (after (start { Launch.zero with x := 0x01, y := 0x20, mem := [(0x10, 0x01)] }) [0xB6, 0xF0] |>
      fun t => (t.x, t.pc)) =
      (0x01, 0x8002) := by
  decide

/-- R108, R121. -/
theorem test_ldx_absolute :
    (after (start { Launch.zero with mem := [(0x1234, 0x7F)] }) [0xAE, 0x34, 0x12] |>
      fun t => (t.x, t.pc)) =
      (0x7F, 0x8003) := by
  decide

/-- LS7. -/
theorem test_ldx_absoluteY :
    (after (start { Launch.zero with y := 0x05, mem := [(0x0105, 0x7F)] }) [0xBE, 0x00, 0x01] |>
      fun t => (t.x, t.readP, t.pc)) =
      (0x7F, 0x20, 0x8003) := by
  decide

/-- LS9. -/
theorem test_ldx_absoluteY_error :
    (after (start { Launch.zero with x := 0x44, y := 0x01 }) [0xBE, 0xFF, 0xFF] |>
      fun t => (t.status, t.x, t.pc)) =
      (.error (.addressOutOfRange 0x10000), 0x44, 0x8001) := by
  decide

/-- L1-1. -/
theorem test_ldy_immediate :
    (after (start Launch.zero) [0xA0, 0x7F] |>
      fun t => (t.y, t.readP, t.pc)) =
      (0x7F, 0x20, 0x8002) := by
  decide

/-- R105, R122. -/
theorem test_ldy_zeroPage :
    (after (start { Launch.zero with mem := [(0x40, 0x80)] }) [0xA4, 0x40] |>
      fun t => (t.y, t.readP)) =
      (0x80, 0xA0) := by
  decide

/-- LS10. -/
theorem test_ldy_zeroPageX :
    (after (start { Launch.zero with x := 0x10, mem := [(0x0F, 0x80)] }) [0xB4, 0xFF] |>
      fun t => (t.y, t.readP, t.pc)) =
      (0x80, 0xA0, 0x8002) := by
  decide

/-- R108, R122. -/
theorem test_ldy_absolute :
    (after (start { Launch.zero with mem := [(0x1234, 0x12)] }) [0xAC, 0x34, 0x12] |>
      fun t => (t.y, t.pc)) =
      (0x12, 0x8003) := by
  decide

/-- LS11. -/
theorem test_ldy_absoluteX_error :
    (after (start { Launch.zero with x := 0x02 }) [0xBC, 0xFF, 0xFF] |>
      fun t => (t.status, t.pc)) =
      (.error (.addressOutOfRange 0x10001), 0x8001) := by
  decide

/-- LS12: no flag written. -/
theorem test_sta_zeroPage :
    (after (start { Launch.zero with a := 0x55, p := 0xA2 }) [0x85, 0x40] |>
      fun t => (t.readByte 0x40, t.readP, t.pc)) =
      (0x55, 0xA2, 0x8002) := by
  decide

/-- L1-2. -/
theorem test_sta_zeroPageX :
    (after (start { Launch.zero with a := 0x55, x := 0xFF }) [0x95, 0xFF] |>
      fun t => (t.readByte 0xFE, t.pc)) =
      (0x55, 0x8002) := by
  decide

/-- L1-5. -/
theorem test_sta_absolute :
    (after (start { Launch.zero with a := 0x83 }) [0x8D, 0x00, 0x02] |>
      fun t => (t.readByte 0x0200, t.pc)) =
      (0x83, 0x8003) := by
  decide

/-- LS14. -/
theorem test_sta_absoluteX_error :
    (after (start { Launch.zero with a := 0x66, x := 0x01 }) [0x9D, 0xFF, 0xFF] |>
      fun t => (t.status, t.readByte 0xFFFF, t.readByte 0x0000)) =
      (.error (.addressOutOfRange 0x10000), 0x00, 0x00) := by
  decide

/-- LS15. -/
theorem test_sta_absoluteY :
    (after (start { Launch.zero with a := 0x66, y := 0x10 }) [0x99, 0xF0, 0x00] |>
      fun t => (t.readByte 0x0100, t.pc)) =
      (0x66, 0x8003) := by
  decide

/-- LS16. -/
theorem test_sta_indirectX :
    (after (start { Launch.zero with a := 0x01, x := 0x02, mem := [(0x13, 0x02)] }) [0x81, 0x10] |>
      fun t => (t.readByte 0x0200, t.pc)) =
      (0x01, 0x8002) := by
  decide

/-- P2, the step at 800C. -/
theorem test_sta_indirectY :
    (after (start { Launch.zero with a := 0xAA, y := 0x03, mem := [(0x10, 0x20), (0x11, 0x80)] }) [0x91, 0x10] |>
      fun t => (t.readByte 0x8023, t.pc)) =
      (0xAA, 0x8002) := by
  decide

/-- L1-9. -/
theorem test_stx_zeroPage :
    (after (start { Launch.zero with x := 0x2A }) [0x86, 0x01] |>
      fun t => (t.readByte 0x01, t.pc)) =
      (0x2A, 0x8002) := by
  decide

/-- LS17: indexed by Y. -/
theorem test_stx_zeroPageY :
    (after (start { Launch.zero with x := 0xAB, y := 0x20 }) [0x96, 0xF0] |>
      fun t => (t.readByte 0x10, t.pc)) =
      (0xAB, 0x8002) := by
  decide

/-- LS18. -/
theorem test_stx_absolute :
    (after (start { Launch.zero with x := 0xAB }) [0x8E, 0x00, 0x03] |>
      fun t => (t.readByte 0x0300, t.pc)) =
      (0xAB, 0x8003) := by
  decide

/-- LS20. -/
theorem test_sty_zeroPage :
    (after (start { Launch.zero with y := 0x07 }) [0x84, 0xFF] |>
      fun t => (t.readByte 0xFF, t.pc)) =
      (0x07, 0x8002) := by
  decide

/-- LS19. -/
theorem test_sty_zeroPageX :
    (after (start { Launch.zero with y := 0x07, x := 0x02 }) [0x94, 0xFF] |>
      fun t => (t.readByte 0x01, t.pc)) =
      (0x07, 0x8002) := by
  decide

/-- R108, R125. -/
theorem test_sty_absolute :
    (after (start { Launch.zero with y := 0x09 }) [0x8C, 0x00, 0x03] |>
      fun t => (t.readByte 0x0300, t.pc)) =
      (0x09, 0x8003) := by
  decide

/-- RT1: no flag by default. -/
theorem test_tax :
    (after (start { Launch.zero with x := 0x55, p := 0xA0 }) [0xAA] |>
      fun t => (t.x, t.readP, t.pc)) =
      (0x00, 0xA0, 0x8001) := by
  decide

/-- RT2: TRANSFER_NZ_ALL. -/
theorem test_tax_all :
    (after (startAll { Launch.zero with x := 0x55, p := 0xA0 }) [0xAA] |>
      fun t => (t.x, t.readP)) =
      (0x00, 0x22) := by
  decide

/-- RT3. -/
theorem test_tay :
    (after (start { Launch.zero with a := 0x80 }) [0xA8] |>
      fun t => (t.y, t.readP, t.pc)) =
      (0x80, 0x20, 0x8001) := by
  decide

/-- RT5. -/
theorem test_txa :
    (after (start { Launch.zero with x := 0xC0, p := 0x02 }) [0x8A] |>
      fun t => (t.a, t.readP, t.pc)) =
      (0xC0, 0xA0, 0x8001) := by
  decide

/-- RT6. -/
theorem test_tya :
    (after (start { Launch.zero with y := 0x80 }) [0x98] |>
      fun t => (t.a, t.readP, t.pc)) =
      (0x80, 0xA0, 0x8001) := by
  decide

/-- RT7. -/
theorem test_tsx :
    (after (start { Launch.zero with sp := 0xFE }) [0xBA] |>
      fun t => (t.x, t.sp, t.readP)) =
      (0xFE, 0xFE, 0x20) := by
  decide

/-- RT8: TRANSFER_NZ_ALL. -/
theorem test_tsx_all :
    (after (startAll { Launch.zero with x := 0x01, p := 0x80 }) [0xBA] |>
      fun t => (t.x, t.readP)) =
      (0x00, 0x22) := by
  decide

/-- RT9: no flag with either parameter value. -/
theorem test_txs :
    (after (startAll { Launch.zero with sp := 0x10 }) [0x9A] |>
      fun t => (t.sp, t.readP, t.pc)) =
      (0x00, 0x20, 0x8001) := by
  decide

/-- LI2. -/
theorem test_ora_immediate :
    (after (start { Launch.zero with a := 0x81 }) [0x09, 0x02] |>
      fun t => (t.a, t.readP, t.pc)) =
      (0x83, 0xA0, 0x8002) := by
  decide

/-- LI3. -/
theorem test_ora_zeroPage :
    (after (start { Launch.zero with a := 0x0F, mem := [(0x40, 0xF0)] }) [0x05, 0x40] |>
      fun t => (t.a, t.readP)) =
      (0xFF, 0xA0) := by
  decide

/-- R106, R150. -/
theorem test_ora_zeroPageX :
    (after (start { Launch.zero with a := 0x01, x := 0x01, mem := [(0x00, 0x02)] }) [0x15, 0xFF] |>
      fun t => (t.a, t.pc)) =
      (0x03, 0x8002) := by
  decide

/-- R108, R150. -/
theorem test_ora_absolute :
    (after (start { Launch.zero with a := 0x01, mem := [(0x1234, 0x80)] }) [0x0D, 0x34, 0x12] |>
      fun t => (t.a, t.readP)) =
      (0x81, 0xA0) := by
  decide

/-- LI4. -/
theorem test_ora_absoluteX :
    (after (start { Launch.zero with a := 0x01, x := 0x01, mem := [(0x0300, 0x40)] }) [0x1D, 0xFF, 0x02] |>
      fun t => (t.a, t.readP, t.pc)) =
      (0x41, 0x20, 0x8003) := by
  decide

/-- R110, R150. -/
theorem test_ora_absoluteY :
    (after (start { Launch.zero with a := 0x01, y := 0x01, mem := [(0x0300, 0x40)] }) [0x19, 0xFF, 0x02] |>
      fun t => (t.a, t.pc)) =
      (0x41, 0x8003) := by
  decide

/-- R113, R150. -/
theorem test_ora_indirectX :
    (after (start { Launch.zero with a := 0x10, x := 0x02, mem := [(0x13, 0x40), (0x4000, 0x01)] }) [0x01, 0x10] |>
      fun t => (t.a, t.pc)) =
      (0x11, 0x8002) := by
  decide

/-- LI5. -/
theorem test_ora_indirectY :
    (after (start { Launch.zero with a := 0x10, y := 0x01, mem := [(0x21, 0x40), (0x4001, 0x01)] }) [0x11, 0x20] |>
      fun t => (t.a, t.pc)) =
      (0x11, 0x8002) := by
  decide

/-- LI7: no carry written. -/
theorem test_inc_zeroPage :
    (after (start { Launch.zero with mem := [(0x40, 0xFF)] }) [0xE6, 0x40] |>
      fun t => (t.readByte 0x40, t.readP, t.pc)) =
      (0x00, 0x22, 0x8002) := by
  decide

/-- LI9. -/
theorem test_inc_zeroPageX :
    (after (start { Launch.zero with x := 0x01, mem := [(0x00, 0x09)] }) [0xF6, 0xFF] |>
      fun t => (t.readByte 0x00, t.pc)) =
      (0x0A, 0x8002) := by
  decide

/-- LI10. -/
theorem test_inc_absolute :
    (after (start Launch.zero) [0xEE, 0x34, 0x12] |>
      fun t => (t.readByte 0x1234, t.readP, t.pc)) =
      (0x01, 0x20, 0x8003) := by
  decide

/-- LI11. -/
theorem test_inc_absoluteX_error :
    (after (start { Launch.zero with x := 0x01 }) [0xFE, 0xFF, 0xFF] |>
      fun t => (t.status, t.readByte 0xFFFF, t.pc)) =
      (.error (.addressOutOfRange 0x10000), 0x00, 0x8001) := by
  decide

/-- LI12. -/
theorem test_inx :
    (after (start { Launch.zero with x := 0xFF }) [0xE8] |>
      fun t => (t.x, t.readP, t.pc)) =
      (0x00, 0x22, 0x8001) := by
  decide

/-- LI15. -/
theorem test_iny :
    (after (start Launch.zero) [0xC8] |>
      fun t => (t.y, t.readP, t.pc)) =
      (0x01, 0x20, 0x8001) := by
  decide

/-- ST2: SP wraps. -/
theorem test_pha :
    (after (start { Launch.zero with a := 0x42 }) [0x48] |>
      fun t => (t.readByte 0x01FF, t.sp, t.pc)) =
      (0x42, 0xFF, 0x8001) := by
  decide

/-- ST4: bit 4 as held. -/
theorem test_php :
    (after (start { Launch.zero with sp := 0x80, p := 0x30 }) [0x08] |>
      fun t => (t.readByte 0x017F, t.sp, t.readP)) =
      (0x30, 0x7F, 0x30) := by
  decide

/-- ST5: increment before the read. -/
theorem test_pla :
    (after (start { Launch.zero with sp := 0xFE, mem := [(0x0100, 0x81)] }) [0x68] |>
      fun t => (t.a, t.sp, t.readP)) =
      (0x81, 0xFF, 0xA0) := by
  decide

/-- ST10: B loaded, bit 5 stays 1. -/
theorem test_plp :
    (after (start { Launch.zero with sp := 0xFE, mem := [(0x0100, 0x10)] }) [0x28] |>
      fun t => (t.readP, t.sp, t.pc)) =
      (0x30, 0xFF, 0x8001) := by
  decide

/-- ST8. -/
theorem test_plp_zero :
    (after (start { Launch.zero with sp := 0xFE, p := 0xFF }) [0x28] |>
      fun t => (t.readP, t.sp)) =
      (0x20, 0xFF) := by
  decide

/-- CF1. -/
theorem test_jmp_absolute :
    (after (start Launch.zero) [0x4C, 0x0D, 0x80] |>
      fun t => t.pc) =
      0x800D := by
  decide

/-- AM11: the high byte is not from page 0x10. -/
theorem test_jmp_indirect :
    (after (start { Launch.zero with mem := [(0x1000, 0x55), (0x1100, 0x90)] }) [0x6C, 0xFF, 0x10] |>
      fun t => t.pc) =
      0x9000 := by
  decide

/-- CF5. -/
theorem test_jmp_indirect_error :
    (after (start Launch.zero) [0x6C, 0xFF, 0xFF] |>
      fun t => (t.status, t.pc)) =
      (.error (.addressOutOfRange 0x10000), 0x8001) := by
  decide

/-- CF6. -/
theorem test_clc :
    (after (start { Launch.zero with p := 0xFF }) [0x18] |>
      fun t => (t.readP, t.pc)) =
      (0xFE, 0x8001) := by
  decide

/-- CF8. -/
theorem test_cld :
    (after (start { Launch.zero with p := 0xFF }) [0xD8] |>
      fun t => (t.readP, t.pc)) =
      (0xF7, 0x8001) := by
  decide

/-- CF9. -/
theorem test_cli :
    (after (start { Launch.zero with p := 0xFF }) [0x58] |>
      fun t => (t.readP, t.pc)) =
      (0xFB, 0x8001) := by
  decide

/-- CF10. -/
theorem test_clv :
    (after (start { Launch.zero with p := 0xFF }) [0xB8] |>
      fun t => (t.readP, t.pc)) =
      (0xBF, 0x8001) := by
  decide

/-- CF11: no push, no flag. -/
theorem test_brk :
    (after (start { Launch.zero with sp := 0xFD, p := 0x24 }) [0x00] |>
      fun t => (t.status, t.sp, t.readP, t.pc)) =
      (.halted, 0xFD, 0x24, 0x8001) := by
  decide

/-- ER3. -/
theorem test_unknown_opcode :
    (after (start { Launch.zero with a := 0x05 }) [0x69, 0x01] |>
      fun t => (t.status, t.a, t.pc)) =
      (.error (.unknownOpcode 0x69), 0x05, 0x8001) := by
  decide

/-- AM19: an instruction whose bytes wrap from 0xFFFF to 0x0000. -/
theorem test_fetch_wraps :
    (after { start { Launch.zero with mem := [(0x1234, 0x80)] } with pc := 0xFFFF } [0xAD, 0x34, 0x12] |>
      fun t => (t.a, t.pc)) = (0x80, 0x0002) := by
  decide

/-- HI5, R230: construction. -/
theorem test_construct : (State.reset.pc, State.reset.status, State.reset.readP) = (0x8000, .running, 0x20) := by
  decide

/-- CF12, ER7: a stopped engine takes no step. -/
theorem test_stopped :
    step { State.reset with status := .halted } = .next { State.reset with status := .halted } ∧
      step { State.reset with status := .error (.unknownOpcode 0x02) } =
        .next { State.reset with status := .error (.unknownOpcode 0x02) } :=
  ⟨rfl, rfl⟩

/-- HI1: load writes the image at LOAD_ADDR and nothing else. -/
theorem test_load :
    State.reset.load [0xA9, 0x05, 0x00] = .ok { State.reset with mem := [(0x8000, 0xA9), (0x8001, 0x05)] } := by
  decide

/-- R204: the error codes. -/
theorem test_codes :
    Status.code (.error (.unknownOpcode 0x02)) = 1 ∧ Status.code (.error (.addressOutOfRange 0x10000)) = 2 ∧
      LoadError.code (.loadOverflow 0x8000 0x8001) = 3 ∧ Status.code .running = 0 := by
  decide

/-- withFetchWord places an instruction so that the next step runs it. -/
theorem test_withFetchWord :
    step (State.reset.withFetchWord 16 0x05A9) =
      .next { State.reset with a := 0x05, pc := 0x8002, mem := [(0x8000, 0xA9), (0x8001, 0x05)] } :=
  eq_next (by decide)


/-! ### Witnesses: for each statement with hypotheses, states and operands that meet all of them, at the boundary of
each clause's range -/

/-- A start state with `bytes` at PC. -/
def loaded (l : Launch) (bytes : List Byte) : State := State.storeBytes bytes 0x8000 (start l)

/-- A state that meets the invariant with a pointer at 0x10 to 0xFFFE, index registers at the given values. -/
def pointing (x y : Byte) : State := start { Launch.zero with x := x, y := y, mem := [(0x10, 0xFE), (0x11, 0xFF)] }

theorem test_witness_ConstructionMeetsInvariant :
    (Config.mk 0xFFFF 0x07FF true).wellFormed = true ∧ Memory.wf [(0, 1), (0xFFFF, 0xFF)] = true := by
  decide

theorem test_witness_StepKeepsInvariant :
    Inv (loaded Launch.zero [0xE6, 0x40]) ∧
      step (loaded Launch.zero [0xE6, 0x40]) = .next (stepState (loaded Launch.zero [0xE6, 0x40])) :=
  ⟨⟨by decide, by decide, trivial, by decide⟩, eq_next (by decide)⟩

theorem test_witness_Status_legal :
    Status.legal (.error (.unknownOpcode 0xEA)) ∧ Status.legal (.error (.addressOutOfRange 0x10000)) ∧
      Status.legal (.error (.addressOutOfRange 0x100FE)) ∧ ¬ Status.legal (.error (.unknownOpcode 0xA9)) ∧
      ¬ Status.legal (.error (.addressOutOfRange 0xFFFF)) :=
  ⟨rfl, by simp [Status.legal], by simp [Status.legal], by simp [Status.legal]; decide, by simp [Status.legal]⟩

theorem test_witness_MemReadChecksRange :
    (start { Launch.zero with mem := [(0xFFFF, 7)] }).memRead 0xFFFF = .ok 7 ∧
      State.reset.memRead 0x10000 = .error (.addressOutOfRange 0x10000) := by
  decide

theorem test_witness_MemWriteChangesOneByte :
    State.reset.memWrite 0xFFFF 7 = .ok { State.reset with mem := [(0xFFFF, 7)] } ∧
      State.reset.memWrite 0x10000 7 = .error (.addressOutOfRange 0x10000) := by
  decide

/-- The last write to an address wins, whatever was written elsewhere between. -/
theorem test_ReadsReturnLatestWrite :
    ([((0x10 : Word), (1 : Byte)), (0x10, 2), (0x11, 3)].foldl (fun st w => State.writeByte w.1 w.2 st)
      State.reset).readByte 0x10 = 2 := by
  decide

theorem test_witness_CanonicalMemories :
    Memory.wf (Memory.write (Memory.write [] 2 1) 1 5) = true ∧
      Memory.wf (Memory.write (Memory.write (Memory.write [] 1 5) 2 9) 2 1) = true ∧
      Memory.write (Memory.write [] 2 1) 1 5 = Memory.write (Memory.write (Memory.write [] 1 5) 2 9) 2 1 := by
  decide

theorem test_witness_DecodedBytesAreTheEncoding :
    decode [0x8D, 0xFF, 0x00, 0xA9] = .ok (.staAbsolute 0x00FF, [0xA9]) := by
  decide

theorem test_witness_AbsentOpcodesAreRejected :
    lookup 0xEA = none ∧ lookup 0xFF = none ∧ lookup 0x00 = some ⟨.brk, .implied⟩ ∧
      lookup 0xFE = some ⟨.inc, .absoluteX⟩ := by
  decide

theorem test_witness_WordOperandsAreLittleEndian :
    decode [0xAD, 0x34, 0x12] = .ok (.ldaAbsolute 0x1234, []) ∧ (Instr.ldaAbsolute 0x1234).length = 3 ∧
      decode [0xBC, 0xFF, 0x00] = .ok (.ldyAbsoluteX 0x00FF, []) ∧ (Instr.ldyAbsoluteX 0x00FF).length = 3 ∧
      decode [0x99, 0x00, 0xFF] = .ok (.staAbsoluteY 0xFF00, []) ∧ (Instr.staAbsoluteY 0xFF00).length = 3 ∧
      decode [0x6C, 0xFF, 0xFF] = .ok (.jmpIndirect 0xFFFF, []) ∧ (Instr.jmpIndirect 0xFFFF).length = 3 := by
  decide

theorem test_witness_StepRunsDecodedInstruction :
    let s := loaded Launch.zero [0xA9, 0x80]
    s.status = .running ∧
      decode [s.readByte s.pc, s.readByte (s.pc + 1), s.readByte (s.pc + 2)] = .ok (.ldaImmediate 0x80, [0x00]) := by
  constructor <;> decide

theorem test_witness_UnknownOpcodeStopsEngine :
    ((loaded Launch.zero [0xEA]).status = .running ∧ lookup (loaded Launch.zero [0xEA]).opcodeAtPC = none) ∧
      exec .clc { State.reset with status := .error (.unknownOpcode 0xEA) } =
        .next { State.reset with pc := 0x8001, status := .error (.unknownOpcode 0xEA) } := by
  repeat' apply And.intro
  all_goals first | decide | exact eq_next (by decide)

/-- The pseudocode step on a Running engine: P4's second step, which errs, and L1-9's second, which stores. -/
theorem test_witness_StepMatchesPseudocode :
    (loaded { Launch.zero with x := 1 } [0xBD, 0xFF, 0xFF]).status = .running ∧
      (pseudoStep (loaded { Launch.zero with x := 1 } [0xBD, 0xFF, 0xFF]) |> fun t => (t.status, t.pc)) =
        (.error (.addressOutOfRange 0x10000), 0x8001) ∧
      (pseudoStep (loaded { Launch.zero with x := 0x2A } [0x86, 0x01]) |> fun t => (t.readByte 1, t.pc)) =
        (0x2A, 0x8002) := by
  decide

theorem test_witness_ZeroPageIndexWraps :
    (Instr.ldxZeroPageY 0xF0).operand.mode = .zeroPageY ∧ (Instr.stxZeroPageY 0xF0).operand.mode = .zeroPageY := by
  decide

theorem test_witness_AbsoluteIndexIsExact :
    let s := start { Launch.zero with x := 1, y := 0xFF }
    (0xFFFE#16).toNat + s.x.toNat = 0xFFFF ∧ resolve (.absoluteX 0xFFFE) s = .ok 0xFFFF ∧
      (0xFFFF#16).toNat + s.x.toNat = 0x10000 ∧
      resolve (.absoluteX 0xFFFF) s = .error (.addressOutOfRange 0x10000) ∧
      (0xFF00#16).toNat + s.y.toNat = 0xFFFF ∧ resolve (.absoluteY 0xFF00) s = .ok 0xFFFF ∧
      (0xFF01#16).toNat + s.y.toNat = 0x10000 ∧
      resolve (.absoluteY 0xFF01) s = .error (.addressOutOfRange 0x10000) := by
  decide

theorem test_witness_AbsoluteAndIndirectResolve :
    resolve (.indirect 0xFFFE) (start { Launch.zero with mem := [(0xFFFE, 0x34), (0xFFFF, 0x12)] }) = .ok 0x1234 ∧
      resolve (.indirect 0xFFFF) State.reset = .error (.addressOutOfRange 0x10000) ∧
      (Instr.jmpIndirect 0x0010).operand.mode = .indirect := by
  decide

/-- The pointer at 0x10 is 0xFFFE: index 1 is in range, index 2 is not. -/
theorem test_witness_ZeroPagePointerModesResolve :
    resolve (.indirectX 0x0F) (pointing 1 0) = .ok 0xFFFE ∧ resolve (.indirectY 0x10) (pointing 0 1) = .ok 0xFFFF ∧
      resolve (.indirectY 0x10) (pointing 0 2) = .error (.addressOutOfRange 0x10000) := by
  decide

/-- Index 0 agrees; index 0xFF is one of the others, and differs at this state. -/
theorem test_witness_IndirectModesAgreeAtIndexZero :
    (pointing 0 0).x = 0 ∧ (pointing 0 0).y = 0 ∧
      resolve (.indirectX 0x10) (pointing 0 0) = resolve (.indirectY 0x10) (pointing 0 0) ∧ (0xFF#8) ≠ 0 ∧
      resolve (.indirectX 0x10) (pointing 0xFF 0xFF) ≠ resolve (.indirectY 0x10) (pointing 0xFF 0xFF) := by
  decide

theorem test_witness_UnusedFlagAlwaysReadsOne :
    State.reset.p.getLsbD 5 = true ∧ step State.reset = .next (stepState State.reset) := by
  repeat' apply And.intro
  all_goals first | decide | exact eq_next (by decide)

theorem test_witness_StackAddressStaysInPage :
    State.reset.config.wellFormed = true ∧ State.reset.stackAddr 0x00 = 0x01FF ∧
      State.reset.stackAddr 0xFF = 0x0100 := by
  decide

theorem test_witness_LoadsWriteRegister :
    DataIs (Instr.ldaImmediate 0x80).operand State.reset 0x80 ∧
      DataIs (Instr.ldaIndirectY 0x10).operand (pointing 0 1) 0x00 ∧
      DataIs (Instr.ldxZeroPageY 0x11).operand (pointing 0 0xFF) 0xFE ∧
      DataIs (Instr.ldyAbsoluteX 0x0011).operand (pointing 0 0) 0xFF :=
  ⟨.inl rfl, .inr ⟨by decide, 0xFFFF, by decide, by decide⟩, .inr ⟨by decide, 0x10, by decide, by decide⟩,
    .inr ⟨by decide, 0x11, by decide, by decide⟩⟩

theorem test_witness_StoresWriteOneByte :
    resolve (Instr.staIndirectY 0x10).operand (pointing 0 1) = .ok 0xFFFF ∧
      resolve (Instr.stxZeroPageY 0xFF).operand (pointing 0 1) = .ok 0x00 ∧
      resolve (Instr.styAbsolute 0x1234).operand State.reset = .ok 0x1234 := by
  decide

theorem test_witness_TransfersToIndexRegisters :
    State.reset.config.transferNZAll = false ∧ (startAll Launch.zero).config.transferNZAll = true := by
  decide

theorem test_witness_OraOrsIntoAccumulator :
    (Instr.oraImmediate 0x0F).mnemonic = .ora ∧ DataIs (Instr.oraImmediate 0x0F).operand State.reset 0x0F ∧
      (Instr.oraZeroPage 0x10).mnemonic = .ora ∧ DataIs (Instr.oraZeroPage 0x10).operand (pointing 0 0) 0xFE :=
  ⟨rfl, .inl rfl, rfl, .inr ⟨by decide, 0x10, by decide, by decide⟩⟩

theorem test_witness_IncIncrementsByte :
    (Instr.incAbsoluteX 0xFFFE).mnemonic = .inc ∧
      resolve (Instr.incAbsoluteX 0xFFFE).operand (pointing 1 0) = .ok 0xFFFF := by
  decide

theorem test_witness_JmpSetsProgramCounter :
    (Instr.jmpAbsolute 0x0000).mnemonic = .jmp ∧ resolve (Instr.jmpAbsolute 0x0000).operand State.reset = .ok 0 ∧
      (Instr.jmpIndirect 0x0010).mnemonic = .jmp ∧
      resolve (Instr.jmpIndirect 0x0010).operand (pointing 0 0) = .ok 0xFFFE := by
  decide

theorem test_witness_ResolverErrorStopsEngine :
    resolve (Instr.incAbsoluteX 0xFFFF).operand (pointing 1 0) = .error (.addressOutOfRange 0x10000) ∧
      resolve (Instr.ldxAbsoluteY 0xFFFF).operand (pointing 0 1) = .error (.addressOutOfRange 0x10000) ∧
      resolve (Instr.staIndirectY 0x10).operand (pointing 0 2) = .error (.addressOutOfRange 0x10000) ∧
      resolve (Instr.jmpIndirect 0xFFFF).operand State.reset = .error (.addressOutOfRange 0x10000) := by
  decide

/-- STA $10 then LDA ($0E,X) with X = 2 whose pointer, at 0x10, the store has just made 0x0010; then STX and STY followed
by LDX and LDY through other forms that reach the same address. -/
theorem test_witness_StoreThenLoadReturnsValue :
    let s := start { Launch.zero with a := 0x10, x := 2, y := 1 }
    (resolve (Instr.staZeroPage 0x10).operand s = .ok 0x10 ∧
      exec (.staZeroPage 0x10) s = .next { s with pc := 0x8002, mem := [(0x10, 0x10)] } ∧
      (Instr.ldaIndirectX 0x0E).operand.mode ≠ .immediate ∧
      resolve (Instr.ldaIndirectX 0x0E).operand { s with pc := 0x8002, mem := [(0x10, 0x10)] } = .ok 0x10) ∧
    (resolve (Instr.stxZeroPageY 0xFF).operand s = .ok 0x00 ∧
      exec (.stxZeroPageY 0xFF) s = .next { s with pc := 0x8002, mem := [(0x00, 0x02)] } ∧
      (Instr.ldxAbsolute 0x0000).operand.mode ≠ .immediate ∧
      resolve (Instr.ldxAbsolute 0x0000).operand { s with pc := 0x8002, mem := [(0x00, 0x02)] } = .ok 0x00) ∧
    (resolve (Instr.styAbsolute 0xFFFF).operand s = .ok 0xFFFF ∧
      exec (.styAbsolute 0xFFFF) s = .next { s with pc := 0x8003, mem := [(0xFFFF, 0x01)] } ∧
      (Instr.ldyAbsoluteX 0xFFFD).operand.mode ≠ .immediate ∧
      resolve (Instr.ldyAbsoluteX 0xFFFD).operand { s with pc := 0x8003, mem := [(0xFFFF, 0x01)] } = .ok 0xFFFF) := by
  dsimp only
  repeat' apply And.intro
  all_goals first | decide | exact eq_next (by decide)

theorem test_witness_StoppedEngineStays :
    { State.reset with status := .halted }.status ≠ .running ∧
      { State.reset with status := .error (.unknownOpcode 0x02) }.status ≠ .running := by
  decide

/-- A step that halts (opcode 0x00), and one that errs for each of the two reasons (R80). -/
theorem test_witness_StatusMovesOnlyAsStated :
    (State.reset.status = .running ∧ State.reset.opcodeAtPC = 0x00 ∧
      step State.reset = .next { State.reset with pc := 0x8001, status := .halted }) ∧
    (lookup (loaded Launch.zero [0x02]).opcodeAtPC = none ∧
      step (loaded Launch.zero [0x02]) =
        .next (errorOutcome (.unknownOpcode 0x02) (loaded Launch.zero [0x02]))) ∧
    Fetches (loaded Launch.zero [0x6C, 0xFF, 0xFF]) (.jmpIndirect 0xFFFF) ∧
      step (loaded Launch.zero [0x6C, 0xFF, 0xFF]) =
        .next (errorOutcome (.addressOutOfRange 0x10000) (loaded Launch.zero [0x6C, 0xFF, 0xFF])) :=
  ⟨⟨by decide, by decide, eq_next (by decide)⟩, ⟨by decide, eq_next (by decide)⟩, ⟨[], by decide⟩,
    eq_next (by decide)⟩

theorem test_witness_ErrorsAreAtomic :
    let s := loaded { Launch.zero with y := 1 } [0x99, 0xFF, 0xFF]
    s.status = .running ∧ step s = .next (errorOutcome (.addressOutOfRange 0x10000) s) := by
  dsimp only
  repeat' apply And.intro
  all_goals first | decide | exact eq_next (by decide)

/-- The greatest payload of each indexed form, and the one of JMP Indirect. -/
theorem test_witness_OutOfRangeOnlyFromListedForms :
    let sx := loaded { Launch.zero with x := 0xFF } [0xFE, 0xFF, 0xFF]
    let sy := loaded { Launch.zero with y := 0xFF } [0x19, 0xFF, 0xFF]
    let si := loaded { Launch.zero with y := 0xFF, mem := [(0x10, 0xFF), (0x11, 0xFF)] } [0x91, 0x10]
    let sj := loaded Launch.zero [0x6C, 0xFF, 0xFF]
    (sx.status = .running ∧ step sx = .next (errorOutcome (.addressOutOfRange 0x100FE) sx)) ∧
      (sy.status = .running ∧ step sy = .next (errorOutcome (.addressOutOfRange 0x100FE) sy)) ∧
      (si.status = .running ∧ step si = .next (errorOutcome (.addressOutOfRange 0x100FE) si)) ∧
      (sj.status = .running ∧ step sj = .next (errorOutcome (.addressOutOfRange 0x10000) sj)) := by
  dsimp only
  repeat' apply And.intro
  all_goals first | decide | exact eq_next (by decide)

theorem test_witness_RegistersChangeOnlyByListedWriters :
    exec (.incZeroPage 0x40) State.reset =
        .next { State.reset with pc := 0x8002, mem := [(0x40, 0x01)] } ∧
      Instr.mnemonic (.incZeroPage 0x40) ∉ [Mnemonic.lda, .txa, .tya, .ora, .pla] ∧
      Instr.mnemonic (.incZeroPage 0x40) ∉ [Mnemonic.ldx, .tax, .tsx, .inx] ∧
      Instr.mnemonic (.incZeroPage 0x40) ∉ [Mnemonic.ldy, .tay, .iny] ∧
      Instr.mnemonic (.incZeroPage 0x40) ∉ [Mnemonic.pha, .php, .pla, .plp, .txs] ∧
      Instr.mnemonic (.incZeroPage 0x40) ≠ .jmp ∧ resolve (Instr.incZeroPage 0x40).operand State.reset = .ok 0x40 := by
  repeat' apply And.intro
  all_goals first | decide | exact eq_next (by decide)

/-- INC is no writer of C; TAX is a writer of Z only under TRANSFER_NZ_ALL. -/
theorem test_witness_FlagsChangeOnlyByListedWriters :
    exec .tax State.reset = .next { State.reset with pc := 0x8001 } ∧
      Instr.mnemonic .tax ∉ flagWriters State.reset.config.transferNZAll .zero ∧
      Instr.mnemonic .tax ∈ flagWriters (startAll Launch.zero).config.transferNZAll .zero ∧
      Instr.mnemonic (.incZeroPage 0x40) ∉ flagWriters true .carry := by
  repeat' apply And.intro
  all_goals first | decide | exact eq_next (by decide)

/-- A push stores at 0x01FF and nowhere else; a jump nowhere. -/
theorem test_witness_MemoryChangesOnlyAtStoreAddress :
    exec .pha State.reset = .next { State.reset with pc := 0x8001, sp := 0xFF } ∧
      storeAddress .pha State.reset = some 0x01FF ∧ storeAddress .pha State.reset ≠ some 0x0100 ∧
      storeAddress (.jmpAbsolute 0x1234) State.reset ≠ some 0x1234 := by
  repeat' apply And.intro
  all_goals first | decide | exact eq_next (by decide)

/-- Two steps (INX, then BRK) before any PHP. -/
theorem test_witness_FlagsSteerNothingBeforePhp :
    let s := loaded Launch.zero [0xE8, 0x00]
    (∀ k, k < 2 → (steps k s).status = .running → (steps k s).opcodeAtPC ≠ 0x08) ∧
      steps 2 { s with p := 0xFF } = { steps 2 s with p := 0x7D } := by
  decide

/-- LS21: STA $8003 at 0x8000, the next instruction's address; the same for INC, which makes 0xFF there 0x00; and a
push whose slot, with the engine at 0x01FE, is the next address. -/
theorem test_witness_NextFetchSeesStore :
    let s := start { Launch.zero with x := 0x42, mem := [(0x8003, 0xFF)] }
    let p := { start { Launch.zero with a := 0xEA } with pc := 0x01FE }
    (storeAddress (.staAbsolute 0x8003) s = some 0x8003 ∧ storeValue (.staAbsolute 0x8003) s = some 0x00) ∧
      (storeAddress (.stxAbsolute 0x8003) s = some 0x8003 ∧ storeValue (.stxAbsolute 0x8003) s = some 0x42) ∧
      (storeAddress (.incAbsolute 0x8003) s = some 0x8003 ∧ storeValue (.incAbsolute 0x8003) s = some 0x00) ∧
      (0x8003#16).toNat = (s.pc.toNat + (Instr.incAbsolute 0x8003).length) % 65536 ∧
      (storeAddress .pha p = some 0x01FF ∧ storeValue .pha p = some 0xEA) ∧
      (storeAddress .php p = some 0x01FF ∧ storeValue .php p = some 0x20) ∧
      (0x01FF#16).toNat = (p.pc.toNat + Instr.pha.length) % 65536 := by
  decide

/-- HI2, HI3: with LOAD_ADDR 0xFFFE two bytes fit exactly and three do not. -/
theorem test_witness_LoadInstallsImage :
    let s := State.construct { Config.default with loadAddr := 0xFFFE } Launch.zero
    s.config.loadAddr.toNat + [0x01, 0x02].length = 0x10000 ∧
      s.load [0x01, 0x02] = .ok { s with mem := [(0xFFFE, 0x01), (0xFFFF, 0x02)] } ∧
      s.load [0x01, 0x02, 0x03] = .error (.loadOverflow 0xFFFE 3) := by
  decide

/-- L1-7: the run of A9 05 00 ends Halted at 0x8003. -/
theorem test_witness_RunReportsOneTerminalState :
    runsTo (loaded Launch.zero [0xA9, 0x05, 0x00])
        { loaded Launch.zero [0xA9, 0x05, 0x00] with a := 0x05, pc := 0x8003, status := .halted } ∧
      { State.reset with status := .halted }.status ≠ .running :=
  ⟨⟨2, by decide, by decide⟩, by decide⟩

/-- P6: 4C 00 80 at 0x8000. -/
theorem test_witness_JumpToItselfNeverEnds :
    (loaded Launch.zero [0x4C, 0x00, 0x80]).status = .running ∧
      Fetches (loaded Launch.zero [0x4C, 0x00, 0x80]) (.jmpAbsolute (loaded Launch.zero [0x4C, 0x00, 0x80]).pc) :=
  ⟨by decide, [], by decide⟩

/-- The host's machine is step from State.reset. -/
theorem test_core : Sys2Proof.core.step Sys2Proof.core.reset = step State.reset := rfl


end Sys2Proof.Tests
end

section
/-! # What one step can do

Every instruction is one shape, `withAddress` with its mnemonic's effect (`exec_eq_withAddress`), and a step is one of
three (`step_cases`). What the effects change is said once, part by part (`sameExcept_perform`). -/

namespace Sys2Proof.Machine

/-! ### The effect of each mnemonic -/

/-- The effect of each mnemonic on the state with PC past the instruction, given the resolved address `ea` and the
operand's data byte `v` (R120 to R176); `exec_eq_withAddress` ties it to exec. -/
def perform (m : Mnemonic) (ea : Word) (v : Byte) : State → State :=
  match m with
  | .lda => loadA v
  | .ldx => loadX v
  | .ldy => loadY v
  | .sta => storeA ea
  | .stx => storeX ea
  | .sty => storeY ea
  | .tax => transferAX
  | .tay => transferAY
  | .txa => transferXA
  | .tya => transferYA
  | .tsx => transferSX
  | .txs => transferXS
  | .ora => orA v
  | .inc => incrementByte ea
  | .inx => incrementX
  | .iny => incrementY
  | .pha => pushA
  | .php => pushP
  | .pla => pullA
  | .plp => pullP
  | .jmp => jump ea
  | .clc => State.clearFlag .carry
  | .cld => State.clearFlag .decimal
  | .cli => State.clearFlag .interruptDisable
  | .clv => State.clearFlag .overflow
  | .brk => State.halt

/-- The data byte of an operand that resolved to `ea` (R104, R120): bits 7:0 of `ea` itself, or the byte there. -/
def dataAt (o : Operand) (ea : Word) (s : State) : Byte :=
  if o.mode = .immediate then lowByte ea else s.readByte ea

theorem withData_eq_withAddress (o : Operand) (effect : Byte → State → State) (s : State) :
    withData o effect s = withAddress o (fun ea => effect (dataAt o ea s)) s := by
  unfold withData operandData withAddress
  cases resolve o s <;> rfl

/-- R81: every instruction resolves its operand and then has its mnemonic's effect. -/
theorem exec_eq_withAddress (i : Instr) (s : State) :
    exec i s = withAddress i.operand (fun ea => perform i.mnemonic ea (dataAt i.operand ea s)) s := by
  cases i with
  | ldaImmediate | ldaZeroPage | ldaZeroPageX | ldaAbsolute | ldaAbsoluteX | ldaAbsoluteY | ldaIndirectX
  | ldaIndirectY =>
    exact (exec_lda rfl s).trans (withData_eq_withAddress _ loadA s)
  | ldxImmediate | ldxZeroPage | ldxZeroPageY | ldxAbsolute | ldxAbsoluteY =>
    exact (exec_ldx rfl s).trans (withData_eq_withAddress _ loadX s)
  | ldyImmediate | ldyZeroPage | ldyZeroPageX | ldyAbsolute | ldyAbsoluteX =>
    exact (exec_ldy rfl s).trans (withData_eq_withAddress _ loadY s)
  | oraImmediate | oraZeroPage | oraZeroPageX | oraAbsolute | oraAbsoluteX | oraAbsoluteY | oraIndirectX
  | oraIndirectY =>
    exact (exec_ora rfl s).trans (withData_eq_withAddress _ orA s)
  | _ => rfl

/-- R205: an instruction whose operand raises has the error outcome. -/
theorem exec_of_resolve_error {i : Instr} {s : State} {e : EngineError} (h : resolve i.operand s = .error e) :
    exec i s = .next (s.raiseError e) := by
  rw [exec_eq_withAddress, withAddress, h]

/-- R81: an instruction whose operand resolves has its effect, with PC past the instruction. -/
theorem exec_of_resolve_ok {i : Instr} {s : State} {ea : Word} (h : resolve i.operand s = .ok ea) :
    exec i s = .next (perform i.mnemonic ea (dataAt i.operand ea s) (s.advance i.length)) := by
  rw [exec_eq_withAddress]
  exact withAddress_ok h

/-- What holds of the error outcome and of the mnemonic's effect holds of exec's next state (R81, R205). -/
theorem exec_next {i : Instr} {s t : State} {Q : State → Prop} (h : exec i s = .next t)
    (error : ∀ e, resolve i.operand s = .error e → Q (s.raiseError e))
    (done : ∀ ea, resolve i.operand s = .ok ea →
      Q (perform i.mnemonic ea (dataAt i.operand ea s) (s.advance i.length))) : Q t :=
  withAddress_next ((exec_eq_withAddress i s).symm.trans h) error done

/-! ### The three kinds of step -/

/-- R80: a stopped engine takes no step. -/
theorem step_of_stopped {s : State} (h : s.status ≠ .running) : step s = .next s := by
  unfold step
  cases hs : s.status with
  | running => exact absurd hs h
  | halted | error => rfl

/-- R83, R201: an absent opcode byte gives the error outcome. -/
theorem step_of_absent {s : State} (hr : s.status = .running) (h : lookup s.opcodeAtPC = none) :
    step s = .next (s.raiseError (.unknownOpcode s.opcodeAtPC)) := by
  simp only [step, hr, State.fetchBytes_absent h, decode_absent h]

/-- R82: an admitted opcode byte starts an instruction with that opcode. -/
theorem exists_fetches_of_lookup {s : State} {d : Descriptor} (h : lookup s.opcodeAtPC = some d) :
    ∃ i, Fetches s i ∧ i.opcode = s.opcodeAtPC := by
  obtain ⟨i, -, hop, -, hdec, -⟩ := decode_admitted h (s.readByte (s.pc + 1)) (s.readByte (s.pc + 2))
  exact ⟨i, ⟨_, hdec⟩, hop⟩

/-- R81: a Running engine executes the instruction at PC. -/
theorem step_of_fetches {s : State} {i : Instr} (hr : s.status = .running) (h : Fetches s i) :
    step s = exec i s := by
  cases hl : lookup s.opcodeAtPC with
  | none =>
    obtain ⟨rest, hdec⟩ := h
    exact absurd (hdec.symm.trans (decode_absent hl _)) nofun
  | some d =>
    obtain ⟨j, -, -, -, hdec, hfetch⟩ := decode_admitted hl (s.readByte (s.pc + 1)) (s.readByte (s.pc + 2))
    obtain rfl : i = j := fetches_unique h ⟨_, hdec⟩
    simp only [step, hr, State.fetchBytes_admitted hl, hfetch]

/-- R80, R81, R83: all that a step can be. -/
theorem step_cases (s : State) :
    (s.status ≠ .running ∧ step s = .next s) ∨
      (s.status = .running ∧ lookup s.opcodeAtPC = none ∧
        step s = .next (s.raiseError (.unknownOpcode s.opcodeAtPC))) ∨
      (s.status = .running ∧ ∃ i, Fetches s i ∧ i.opcode = s.opcodeAtPC ∧ step s = exec i s) := by
  by_cases hr : s.status = .running
  · cases hl : lookup s.opcodeAtPC with
    | none => exact .inr (.inl ⟨hr, rfl, step_of_absent hr hl⟩)
    | some d =>
      obtain ⟨i, hf, hop⟩ := exists_fetches_of_lookup hl
      exact .inr (.inr ⟨hr, i, hf, hop, step_of_fetches hr hf⟩)
  · exact .inl ⟨hr, step_of_stopped hr⟩

/-- What holds of a stopped engine, of the outcome of an absent opcode and of what the fetched instruction answers
holds of the next state. -/
theorem step_next {s t : State} {Q : State → Prop} (h : step s = .next t) (stopped : s.status ≠ .running → Q s)
    (absent : lookup s.opcodeAtPC = none → Q (s.raiseError (.unknownOpcode s.opcodeAtPC)))
    (executed : ∀ i, exec i s = .next t → Q t) : Q t := by
  obtain ⟨hs, h'⟩ | ⟨-, hl, h'⟩ | ⟨-, i, -, -, h'⟩ := step_cases s
  · obtain rfl : s = t := by simpa using h'.symm.trans h
    exact stopped hs
  · obtain rfl := Host.Outcome.next.inj (h'.symm.trans h)
    exact absent hl
  · exact executed i (h'.symm.trans h)

theorem stepState_of_next {s t : State} (h : step s = .next t) : stepState s = t := by
  simp only [stepState, h]

/-! ### Frames of the state's operations -/

theorem SameExcept.refl (s : State) : SameExcept [] s s := by
  constructor <;> intros <;> rfl

/-- Changes in a row change the parts either of them changes. -/
theorem SameExcept.trans {c d : List Part} {s t u : State} (hst : SameExcept c s t) (htu : SameExcept d t u) :
    SameExcept (c ++ d) s u := by
  have split : ∀ {part : Part}, part ∉ c ++ d → part ∉ c ∧ part ∉ d := by simp
  exact
    { a := fun h => (htu.a (split h).2).trans (hst.a (split h).1)
      x := fun h => (htu.x (split h).2).trans (hst.x (split h).1)
      y := fun h => (htu.y (split h).2).trans (hst.y (split h).1)
      sp := fun h => (htu.sp (split h).2).trans (hst.sp (split h).1)
      flag := fun f h => (htu.flag f (split h).2).trans (hst.flag f (split h).1)
      mem := fun h => (htu.mem (split h).2).trans (hst.mem (split h).1)
      status := fun h => (htu.status (split h).2).trans (hst.status (split h).1)
      config := htu.config.trans hst.config }

theorem SameExcept.mono {c d : List Part} {s t : State} (h : SameExcept c s t) (hcd : c ⊆ d) : SameExcept d s t :=
  { a := fun hd => h.a (hd <| hcd ·)
    x := fun hd => h.x (hd <| hcd ·)
    y := fun hd => h.y (hd <| hcd ·)
    sp := fun hd => h.sp (hd <| hcd ·)
    flag := fun f hd => h.flag f (hd <| hcd ·)
    mem := fun hd => h.mem (hd <| hcd ·)
    status := fun hd => h.status (hd <| hcd ·)
    config := h.config }

theorem sameExcept_writeA (v : Byte) (s : State) : SameExcept [.a] s (s.writeA v) := by constructor <;> simp
theorem sameExcept_writeX (v : Byte) (s : State) : SameExcept [.x] s (s.writeX v) := by constructor <;> simp
theorem sameExcept_writeY (v : Byte) (s : State) : SameExcept [.y] s (s.writeY v) := by constructor <;> simp
theorem sameExcept_writeSP (v : Byte) (s : State) : SameExcept [.sp] s (s.writeSP v) := by constructor <;> simp
theorem sameExcept_writePC (v : Word) (s : State) : SameExcept [] s (s.writePC v) := by constructor <;> simp
theorem sameExcept_halt (s : State) : SameExcept [.status] s s.halt := by constructor <;> simp
theorem sameExcept_raiseError (e : EngineError) (s : State) : SameExcept [.status] s (s.raiseError e) := by
  constructor <;> simp
theorem sameExcept_writeByte (ea : Word) (v : Byte) (s : State) : SameExcept [.mem] s (s.writeByte ea v) := by
  constructor <;> simp

/-- R8: writing a flag changes no other flag and nothing else. -/
theorem sameExcept_setFlag (f : Flag) (b : Bool) (s : State) : SameExcept [.flag f] s (s.setFlag f b) := by
  constructor
  case flag =>
    intro g hg
    by_cases hu : g = .unused
    · subst hu; simp
    · simp_all [State.flag_setFlag]
  all_goals simp

/-- R86: setNZ changes N and Z. -/
theorem sameExcept_setNZ (v : Byte) (s : State) : SameExcept [.flag .negative, .flag .zero] s (s.setNZ v) :=
  ((sameExcept_setFlag .zero _ s).trans (sameExcept_setFlag .negative _ _)).mono (by simp)

/-- The flags a transfer to X or Y writes (R140, R141, R144); `all` is `TRANSFER_NZ_ALL`. -/
def transferFlags (all : Bool) : List Part :=
  if all then [.flag .negative, .flag .zero] else []

theorem sameExcept_setNZIfTransferAll (v : Byte) (s : State) :
    SameExcept (transferFlags s.config.transferNZAll) s (s.setNZIfTransferAll v) := by
  unfold State.setNZIfTransferAll transferFlags
  split
  · exact sameExcept_setNZ v s
  · exact .refl s

/-- R28: a write of P changes every flag but the unused one. -/
theorem sameExcept_writeP (v : Byte) (s : State) :
    SameExcept [.flag .negative, .flag .overflow, .flag .breakFlag, .flag .decimal, .flag .interruptDisable,
      .flag .zero, .flag .carry] s (s.writeP v) := by
  constructor
  case flag => intro f hf; cases f <;> simp_all
  all_goals simp

theorem sameExcept_push (v : Byte) (s : State) : SameExcept [.mem, .sp] s (s.push v) :=
  (sameExcept_writeByte _ v s).trans (sameExcept_writeSP _ _)

/-! ### Frames of the mnemonics -/

/-- The parts each mnemonic may change (files 42 to 46); `all` is `TRANSFER_NZ_ALL`. -/
def partsChanged (all : Bool) : Mnemonic → List Part
  | .lda | .txa | .tya | .ora => [.a, .flag .negative, .flag .zero]
  | .ldx | .inx => [.x, .flag .negative, .flag .zero]
  | .ldy | .iny => [.y, .flag .negative, .flag .zero]
  | .sta | .stx | .sty => [.mem]
  | .tax | .tsx => .x :: transferFlags all
  | .tay => .y :: transferFlags all
  | .txs => [.sp]
  | .inc => [.mem, .flag .negative, .flag .zero]
  | .pha | .php => [.mem, .sp]
  | .pla => [.sp, .a, .flag .negative, .flag .zero]
  | .plp => [.sp, .flag .negative, .flag .overflow, .flag .breakFlag, .flag .decimal, .flag .interruptDisable,
      .flag .zero, .flag .carry]
  | .jmp => []
  | .clc => [.flag .carry]
  | .cld => [.flag .decimal]
  | .cli => [.flag .interruptDisable]
  | .clv => [.flag .overflow]
  | .brk => [.status]

/-- A mnemonic's effect changes only the parts listed for it. -/
theorem sameExcept_perform (m : Mnemonic) (ea : Word) (v : Byte) (s : State) :
    SameExcept (partsChanged s.config.transferNZAll m) s (perform m ea v s) := by
  cases m with
  | lda | ora | txa | tya => exact (sameExcept_writeA _ s).trans (sameExcept_setNZ _ _)
  | ldx | inx => exact (sameExcept_writeX _ s).trans (sameExcept_setNZ _ _)
  | ldy | iny => exact (sameExcept_writeY _ s).trans (sameExcept_setNZ _ _)
  | sta | stx | sty => exact sameExcept_writeByte ea _ s
  | tax => exact (sameExcept_writeX s.a s).trans (sameExcept_setNZIfTransferAll s.a (s.writeX s.a))
  | tay => exact (sameExcept_writeY s.a s).trans (sameExcept_setNZIfTransferAll s.a (s.writeY s.a))
  | tsx => exact (sameExcept_writeX s.sp s).trans (sameExcept_setNZIfTransferAll s.sp (s.writeX s.sp))
  | txs => exact sameExcept_writeSP s.x s
  | inc => exact (sameExcept_writeByte ea _ s).trans (sameExcept_setNZ _ _)
  | pha | php => exact sameExcept_push _ s
  | pla => exact ((sameExcept_writeSP _ s).trans (sameExcept_writeA _ _)).trans (sameExcept_setNZ _ _)
  | plp => exact (sameExcept_writeSP _ s).trans (sameExcept_writeP _ _)
  | jmp => exact sameExcept_writePC ea s
  | clc => exact sameExcept_setFlag .carry false s
  | cld => exact sameExcept_setFlag .decimal false s
  | cli => exact sameExcept_setFlag .interruptDisable false s
  | clv => exact sameExcept_setFlag .overflow false s
  | brk => exact sameExcept_halt s

/-- R24: only a jump's effect moves PC. -/
theorem perform_pc {m : Mnemonic} (h : m ≠ .jmp) (ea : Word) (v : Byte) (s : State) : (perform m ea v s).pc = s.pc := by
  cases m with
  | jmp => exact absurd rfl h
  | tax | tay | tsx => exact State.setNZIfTransferAll_pc _ _
  | _ => rfl

/-- exec changes only its mnemonic's parts, PC, and the status where its operand raises (R205). -/
theorem sameExcept_exec {i : Instr} {s t : State} (h : exec i s = .next t) :
    SameExcept (.status :: partsChanged s.config.transferNZAll i.mnemonic) s t := by
  refine exec_next h (fun e _ => ?_) (fun ea _ => ?_)
  · exact (sameExcept_raiseError e s).mono (by simp)
  · exact ((sameExcept_writePC _ s).trans (sameExcept_perform _ ea _ _)).mono (List.subset_cons_self _ _)

/-- R34: no step writes the parameters. -/
theorem step_config {s t : State} (h : step s = .next t) : t.config = s.config :=
  step_next (Q := fun t => t.config = s.config) h (fun _ => rfl) (fun _ => rfl) fun _ hx => (sameExcept_exec hx).config

end Sys2Proof.Machine
end

section
/-! # The registers, the flags and the stack page (10_state.md) -/

namespace Sys2Proof.Machine

/-! ### Which mnemonics write which register and flag -/

theorem a_mem_partsChanged {all : Bool} {m : Mnemonic} :
    Part.a ∈ partsChanged all m ↔ m ∈ [.lda, .txa, .tya, .ora, .pla] := by
  cases all <;> cases m <;> decide

theorem x_mem_partsChanged {all : Bool} {m : Mnemonic} :
    Part.x ∈ partsChanged all m ↔ m ∈ [.ldx, .tax, .tsx, .inx] := by
  cases all <;> cases m <;> decide

theorem y_mem_partsChanged {all : Bool} {m : Mnemonic} :
    Part.y ∈ partsChanged all m ↔ m ∈ [.ldy, .tay, .iny] := by
  cases all <;> cases m <;> decide

theorem sp_mem_partsChanged {all : Bool} {m : Mnemonic} :
    Part.sp ∈ partsChanged all m ↔ m ∈ [.pha, .php, .pla, .plp, .txs] := by
  cases all <;> cases m <;> decide

theorem status_mem_partsChanged {all : Bool} {m : Mnemonic} : Part.status ∈ partsChanged all m ↔ m = .brk := by
  cases all <;> cases m <;> decide

theorem flag_mem_partsChanged {all : Bool} {m : Mnemonic} {f : Flag} :
    Part.flag f ∈ partsChanged all m ↔ m ∈ flagWriters all f := by
  cases all <;> cases m <;> cases f <;> decide

/-- Settles O49, by the frame of exec and the parts each mnemonic changes. -/
theorem registersChangeOnlyByListedWriters : Obligations.RegistersChangeOnlyByListedWriters := by
  refine ⟨fun i s t h => ?_, fun _ _ => step_config⟩
  have frame := sameExcept_exec h
  refine ⟨fun ha => frame.a ?_, fun hx => frame.x ?_, fun hy => frame.y ?_, fun hsp => frame.sp ?_,
    fun hjmp hok => ?_⟩
  · simpa [a_mem_partsChanged] using ha
  · simpa [x_mem_partsChanged] using hx
  · simpa [y_mem_partsChanged] using hy
  · simpa [sp_mem_partsChanged] using hsp
  · exact exec_next h (fun e he => absurd he (hok e)) fun ea _ => pcPast_of_advance (perform_pc hjmp ea _ _)

/-- Settles O50, by the frame of exec and the flags each mnemonic changes. -/
theorem flagsChangeOnlyByListedWriters : Obligations.FlagsChangeOnlyByListedWriters := by
  intro i s t f h hf
  exact (sameExcept_exec h).flag f (by simpa [flag_mem_partsChanged] using hf)

/-! ### Bit 5 of P -/

/-- R28: the bit of the mask is bit 5. -/
@[simp] theorem bit5_or_alwaysOneMask (v : Byte) : (v ||| alwaysOneMask).getLsbD 5 = true := by
  simp [alwaysOneMask]

theorem bit5_construct (c : Config) (l : Launch) : (State.construct c l).p.getLsbD 5 = true :=
  bit5_or_alwaysOneMask l.p

theorem bit5_setNZIfTransferAll {s : State} (v : Byte) (h : s.p.getLsbD 5 = true) :
    (s.setNZIfTransferAll v).p.getLsbD 5 = true := by
  unfold State.setNZIfTransferAll
  split
  · exact bit5_or_alwaysOneMask _
  · exact h

/-- R28: a mnemonic's effect leaves P as it is or writes it with the mask. -/
theorem bit5_perform {s : State} (h : s.p.getLsbD 5 = true) (m : Mnemonic) (ea : Word) (v : Byte) :
    (perform m ea v s).p.getLsbD 5 = true := by
  cases m with
  | sta | stx | sty | txs | pha | php | jmp | brk => exact h
  | tax | tay | tsx => exact bit5_setNZIfTransferAll _ h
  | lda | ldx | ldy | txa | tya | ora | inc | inx | iny | pla | plp | clc | cld | cli | clv =>
    exact bit5_or_alwaysOneMask _

theorem bit5_step {s t : State} (h : s.p.getLsbD 5 = true) (hst : step s = .next t) : t.p.getLsbD 5 = true :=
  step_next (Q := fun t => t.p.getLsbD 5 = true) hst (fun _ => h) (fun _ => h) fun i hx =>
    exec_next (Q := fun t => t.p.getLsbD 5 = true) hx (fun _ _ => h) fun ea _ =>
      bit5_perform (s := s.advance i.length) h _ ea _

/-- Settles O24: every write of P sets bit 5, and every effect keeps it. -/
theorem unusedFlagAlwaysReadsOne : Obligations.UnusedFlagAlwaysReadsOne :=
  ⟨State.flag_unused, bit5_construct, fun v _ => bit5_or_alwaysOneMask v,
    fun _ => ⟨_, rfl, bit5_or_alwaysOneMask _⟩, fun _ _ => bit5_step⟩

/-! ### Construction -/

/-- R20: a flag but the unused one is the draw's. -/
theorem flag_construct (c : Config) (l : Launch) {f : Flag} (hf : f ≠ .unused) :
    (State.construct c l).flag f = getFlag f l.p :=
  (State.flag_writeP l.p (State.construct c l) f).trans (if_neg hf)

/-- Settles O1: P is the only field that construction does not copy. -/
theorem constructionLeavesDraws : Obligations.ConstructionLeavesDraws :=
  fun c l => ⟨rfl, rfl, State.flag_unused _, fun _ => flag_construct c l, rfl, rfl, rfl, rfl, fun _ => rfl, rfl⟩

theorem inv_construct {c : Config} {l : Launch} (hc : c.wellFormed = true) (hm : Memory.wf l.mem = true) :
    Inv (State.construct c l) where
  mem := hm
  bit5 := bit5_construct c l
  status := trivial
  stackBase := hc

/-- Settles O2: the parts of Inv hold of the draws or are set by construction. -/
theorem constructionMeetsInvariant : Obligations.ConstructionMeetsInvariant :=
  ⟨fun _ _ => inv_construct, inv_construct rfl rfl⟩

/-! ### The stack page and the byte PHP writes -/

theorem stackBase_mod {c : Config} (h : c.wellFormed = true) : c.stackBase.toNat % 256 = 255 :=
  eq_of_beq h

/-- R25: with STACK_BASE of form 0xNNFF the 16-bit subtraction is exact. -/
theorem toNat_stackAddr {s : State} (h : s.config.wellFormed = true) (slot : Byte) :
    (s.stackAddr slot).toNat = s.config.stackBase.toNat - slot.toNat := by
  have hform := stackBase_mod h
  have hslot := slot.isLt
  rw [State.stackAddr, BitVec.toNat_sub_of_le, toNat_zext16]
  rw [BitVec.le_def, toNat_zext16]
  omega

/-- Settles O25: a slot is at most 0xFF, the low byte of STACK_BASE. -/
theorem stackAddressStaysInPage : Obligations.StackAddressStaysInPage := by
  intro s slot h
  have hform := stackBase_mod h
  have hslot := slot.isLt
  rw [toNat_stackAddr h]
  omega

/-- R160, R161: the slot SP named before a push holds the byte pushed. -/
theorem readByte_push (v : Byte) (s : State) : (s.push v).readByte (s.stackAddr s.sp) = v :=
  State.readByte_writeByte_same ..

/-- Settles O37: PHP pushes P as read, whose bits are the flags. -/
theorem phpShowsFlagBits : Obligations.PhpShowsFlagBits := by
  intro s
  have pushed : (pushP (s.advance 1)).readByte (s.stackAddr s.sp) = s.readP := readByte_push _ (s.advance 1)
  refine ⟨pushP (s.advance 1), rfl, ?_⟩
  rw [pushed]
  exact ⟨rfl, rfl, State.readP_bit5 s, rfl, rfl, rfl, rfl, rfl⟩

end Sys2Proof.Machine
end

section
/-! # Every step keeps the invariant -/

namespace Sys2Proof.Machine

/-- R202: an error the resolver raises is one that the status may record, its address a 16-bit one plus an index, or
0x10000. -/
theorem legal_of_resolve_error {o : Operand} {s : State} {e : EngineError} (h : resolve o s = .error e) :
    (Status.error e).legal := by
  obtain ⟨n, rfl, hshape, hgt⟩ := resolve_error_shape o s e h
  have hx := s.x.isLt
  have hy := s.y.isLt
  refine ⟨hgt, ?_⟩
  obtain ⟨base, -, rfl⟩ | ⟨base, -, rfl⟩ | ⟨z, -, rfl⟩ | ⟨-, rfl⟩ := hshape
  · have := base.isLt; omega
  · have := base.isLt; omega
  · have := (readZpPtr z s).isLt; omega
  · decide

/-- Log 9: a mnemonic's effect writes memory, if at all, by one write of a byte. -/
theorem wf_perform {s : State} (h : Memory.wf s.mem = true) (m : Mnemonic) (ea : Word) (v : Byte) :
    Memory.wf (perform m ea v s).mem = true := by
  cases m with
  | sta | stx | sty | inc => exact State.wf_writeByte ea _ s h
  | pha | php => exact State.wf_writeByte (s.stackAddr s.sp) _ s h
  | tax | tay | tsx => simpa [perform, transferAX, transferAY, transferSX] using h
  | lda | ldx | ldy | txa | tya | txs | ora | inx | iny | pla | plp | jmp | clc | cld | cli | clv | brk => exact h

/-- R80: a mnemonic's effect leaves the status or halts. -/
theorem legal_perform {s : State} (h : s.status.legal) (m : Mnemonic) (ea : Word) (v : Byte) :
    (perform m ea v s).status.legal := by
  by_cases hm : m = .brk
  · subst hm; trivial
  · rwa [(sameExcept_perform m ea v s).status (mt status_mem_partsChanged.mp hm)]

theorem inv_raiseError {s : State} {e : EngineError} (h : Inv s) (he : (Status.error e).legal) : Inv (s.raiseError e) :=
  { h with status := he }

theorem inv_perform {s : State} (h : Inv s) (m : Mnemonic) (ea : Word) (v : Byte) : Inv (perform m ea v s) where
  mem := wf_perform h.mem m ea v
  bit5 := bit5_perform h.bit5 m ea v
  status := legal_perform h.status m ea v
  stackBase := (sameExcept_perform m ea v s).config ▸ h.stackBase

/-- Every instruction keeps the invariant: the error outcome by the error's payload, the others by their effect. -/
theorem inv_exec {i : Instr} {s t : State} (h : Inv s) (hx : exec i s = .next t) : Inv t :=
  exec_next hx (fun _ he => inv_raiseError h (legal_of_resolve_error he)) fun ea _ =>
    inv_perform (s := s.advance i.length) { h with } _ ea _

/-- Settles O3: a stopped engine stays, an absent opcode is a legal error, and every instruction keeps Inv. -/
theorem stepKeepsInvariant : Obligations.StepKeepsInvariant := by
  intro s t h hst
  exact step_next hst (fun _ => h) (fun habs => inv_raiseError h habs) fun _ hx => inv_exec h hx

end Sys2Proof.Machine
end

section
/-! # The flags steer nothing before a PHP -/

namespace Sys2Proof.Machine

/-- `t` is `s` with some other P. -/
def SameButP (s t : State) : Prop :=
  ∃ q, t = { s with p := q }

theorem resolve_withP (o : Operand) (s : State) (q : Byte) : resolve o { s with p := q } = resolve o s := by
  cases o <;> rfl

theorem setNZIfTransferAll_sameButP (v : Byte) {s t : State} (h : SameButP s t) :
    SameButP (s.setNZIfTransferAll v) (t.setNZIfTransferAll v) := by
  obtain ⟨q, rfl⟩ := h
  unfold State.setNZIfTransferAll
  split <;> exact ⟨_, rfl⟩

/-- R161: P reaches something else only by PHP's push. -/
theorem perform_sameButP {m : Mnemonic} (hm : m ≠ .php) (ea : Word) (v : Byte) (s : State) (q : Byte) :
    SameButP (perform m ea v s) (perform m ea v { s with p := q }) := by
  cases m with
  | php => exact absurd rfl hm
  | tax | tsx => exact setNZIfTransferAll_sameButP _ ⟨q, rfl⟩
  | tay => exact setNZIfTransferAll_sameButP _ ⟨q, rfl⟩
  | _ => exact ⟨_, rfl⟩

/-- What an instruction but PHP answers in a state and in the same state with another P. -/
theorem exec_sameButP {i : Instr} (hi : i.mnemonic ≠ .php) (s : State) (q : Byte) :
    ∃ t t', exec i s = .next t ∧ exec i { s with p := q } = .next t' ∧ SameButP t t' := by
  cases h : resolve i.operand s with
  | error e => exact ⟨_, _, exec_of_resolve_error h, exec_of_resolve_error ((resolve_withP ..).trans h), q, rfl⟩
  | ok ea =>
    exact ⟨_, _, exec_of_resolve_ok h, exec_of_resolve_ok ((resolve_withP ..).trans h), perform_sameButP hi ea _ _ q⟩

theorem opcode_of_php {i : Instr} (h : i.mnemonic = .php) : i.opcode = 0x08 := by
  cases i with
  | php => rfl
  | _ => exact Mnemonic.noConfusion h

/-- One step that fetches no PHP keeps two states equal but for P. -/
theorem stepState_sameButP {s t : State} (h : SameButP s t) (hphp : s.status = .running → s.opcodeAtPC ≠ 0x08) :
    SameButP (stepState s) (stepState t) := by
  obtain ⟨q, rfl⟩ := h
  obtain ⟨hs, h⟩ | ⟨hr, hl, h⟩ | ⟨hr, i, hf, hop, h⟩ := step_cases s
  · rw [stepState_of_next h, stepState_of_next (step_of_stopped (s := { s with p := q }) hs)]
    exact ⟨q, rfl⟩
  · rw [stepState_of_next h, stepState_of_next (step_of_absent (s := { s with p := q }) hr hl)]
    exact ⟨q, rfl⟩
  · have hi : i.mnemonic ≠ .php := fun hm => hphp hr (hop ▸ opcode_of_php hm)
    obtain ⟨t, t', ht, ht', hsame⟩ := exec_sameButP hi s q
    rw [stepState_of_next (h.trans ht),
      stepState_of_next ((step_of_fetches (s := { s with p := q }) hr hf).trans ht')]
    exact hsame

/-- Steps that fetch no PHP keep two states equal but for P. -/
theorem steps_sameButP {s t : State} (h : SameButP s t) (n : Nat)
    (hphp : ∀ k, k < n → (steps k s).status = .running → (steps k s).opcodeAtPC ≠ 0x08) :
    SameButP (steps n s) (steps n t) := by
  induction n generalizing s t with
  | zero => exact h
  | succ n ih =>
    have first : SameButP (stepState s) (stepState t) := stepState_sameButP h (hphp 0 n.succ_pos)
    exact ih first fun k hk => hphp (k + 1) (Nat.succ_lt_succ hk)

/-- Settles O52, by induction on the number of steps, over all pairs of states equal but for P. -/
theorem flagsSteerNothingBeforePhp : Obligations.FlagsSteerNothingBeforePhp :=
  fun n _ q hphp => steps_sameButP ⟨q, rfl⟩ n hphp

end Sys2Proof.Machine
end

section
/-! # Memory (20_memory.md)

The bytes of the state as reads and writes of one byte see them, the canonical form as a normal form, the byte order
of word operands, and the one byte an instruction writes. -/

namespace Sys2Proof.Machine

/-! ### One read or write -/

theorem State.memRead_of_le {addr : Nat} (h : addr ≤ 0xFFFF) (s : State) :
    s.memRead addr = .ok (Memory.read s.mem addr) := by
  obtain ⟨-, ea, hok, rfl⟩ | ⟨hgt, -⟩ := checkedAddress_cases addr
  · exact State.memRead_word ea s
  · omega

theorem State.memRead_of_gt {addr : Nat} (h : addr > 0xFFFF) (s : State) :
    s.memRead addr = .error (.addressOutOfRange addr) := by
  simp only [State.memRead, checkedAddress_error h]

theorem State.memWrite_of_le {addr : Nat} (h : addr ≤ 0xFFFF) (v : Byte) (s : State) :
    s.memWrite addr v = .ok { s with mem := Memory.write s.mem addr v } := by
  obtain ⟨-, ea, hok, rfl⟩ | ⟨hgt, -⟩ := checkedAddress_cases addr
  · simp only [State.memWrite, hok, State.writeByte]
  · omega

theorem State.memWrite_of_gt {addr : Nat} (h : addr > 0xFFFF) (v : Byte) (s : State) :
    s.memWrite addr v = .error (.addressOutOfRange addr) := by
  simp only [State.memWrite, checkedAddress_error h]

/-- Settles O4: the address check is the only way a read can fail. -/
theorem memReadChecksRange : Obligations.MemReadChecksRange :=
  fun _ s => ⟨fun h => State.memRead_of_gt h s, fun h => State.memRead_of_le h s⟩

/-- Settles O5: a write in range is Memory.write, whose laws say which byte changes. -/
theorem memWriteChangesOneByte : Obligations.MemWriteChangesOneByte :=
  fun addr v s => ⟨fun h => State.memWrite_of_gt h v s, fun h =>
    ⟨_, State.memWrite_of_le h v s, Memory.read_write_same s.mem addr v,
      fun _ hne => Memory.read_write_other s.mem v hne, rfl⟩⟩

/-- Settles O6, by induction on the writes from the last one back. -/
theorem readsReturnLatestWrite : Obligations.ReadsReturnLatestWrite := by
  intro writes s addr
  induction writes using List.reverseRecOn with
  | nil => rfl
  | append_singleton writes w ih =>
    rw [List.foldl_concat, List.reverse_concat, List.find?_cons]
    by_cases hw : w.1 = addr
    · subst hw
      simp
    · rw [State.readByte_writeByte_other _ _ (Ne.symm hw), ih, beq_false_of_ne hw]

/-! ### The canonical form -/

/-- Log 9: a canonical memory lists its addresses from its lower bound on. -/
theorem Memory.le_of_read_ne_unlisted {lo addr : Nat} {m : Memory} (hm : Memory.wfFrom lo m = true)
    (h : Memory.read m addr ≠ unlistedByte) : lo ≤ addr := by
  induction m generalizing lo with
  | nil => exact absurd rfl h
  | cons c rest ih =>
    obtain ⟨b, v⟩ := c
    obtain ⟨hlo, -, -, hrest⟩ := (Memory.wfFrom_cons ..).mp hm
    by_cases hb : addr = b
    · omega
    · rw [Memory.read, if_neg hb] at h
      have := ih hrest h
      omega

theorem Memory.head_le_of_read_ne_unlisted {lo b addr : Nat} {v : Byte} {rest : Memory}
    (hm : Memory.wfFrom lo ((b, v) :: rest) = true) (h : Memory.read ((b, v) :: rest) addr ≠ unlistedByte) :
    b ≤ addr := by
  obtain ⟨-, hbound⟩ := (Memory.wfFrom_cons ..).mp hm
  exact Memory.le_of_read_ne_unlisted ((Memory.wfFrom_cons ..).mpr ⟨le_rfl, hbound⟩) h

/-- The entries after the first one read as the whole memory does, but at the first address, which they do not list. -/
theorem Memory.read_rest {b : Nat} {rest : Memory} (hm : Memory.wfFrom (b + 1) rest = true) (v : Byte) (addr : Nat) :
    Memory.read rest addr = if addr = b then unlistedByte else Memory.read ((b, v) :: rest) addr := by
  split
  · by_contra h
    have := Memory.le_of_read_ne_unlisted hm h
    omega
  · rw [Memory.read, if_neg ‹_›]

/-- Log 9: canonical memories that read the same are the same list. The first entries agree because each memory lists
the other's first address; the rests read the same again. -/
theorem Memory.eq_of_read_eq {lo lo' : Nat} {m m' : Memory} (hm : Memory.wfFrom lo m = true)
    (hm' : Memory.wfFrom lo' m' = true)
    (h : ∀ addr, addr < 65536 → Memory.read m addr = Memory.read m' addr) : m = m' := by
  induction m generalizing lo lo' m' with
  | nil =>
    cases m' with
    | nil => rfl
    | cons c' rest' =>
      obtain ⟨b', v'⟩ := c'
      obtain ⟨-, hb', hv', -⟩ := (Memory.wfFrom_cons ..).mp hm'
      exact absurd (by simpa [Memory.read] using (h b' hb').symm) hv'
  | cons c rest ih =>
    obtain ⟨b, v⟩ := c
    obtain ⟨-, hb, hv, hrest⟩ := (Memory.wfFrom_cons ..).mp hm
    have head : Memory.read ((b, v) :: rest) b = v := if_pos rfl
    cases m' with
    | nil => exact absurd (head.symm.trans (h b hb)) hv
    | cons c' rest' =>
      obtain ⟨b', v'⟩ := c'
      obtain ⟨-, hb', hv', hrest'⟩ := (Memory.wfFrom_cons ..).mp hm'
      have head' : Memory.read ((b', v') :: rest') b' = v' := if_pos rfl
      have hle : b ≤ b' := Memory.head_le_of_read_ne_unlisted hm (((h b' hb').trans head').trans_ne hv')
      have hge : b' ≤ b := Memory.head_le_of_read_ne_unlisted hm' (((h b hb).symm.trans head).trans_ne hv)
      obtain rfl : b = b' := le_antisymm hle hge
      obtain rfl : v = v' := head.symm.trans ((h b hb).trans head')
      obtain rfl : rest = rest' := ih hrest hrest' fun addr haddr => by
        rw [Memory.read_rest hrest v, Memory.read_rest hrest' v, h addr haddr]
      rfl

/-- Settles O7, by induction on both lists from any lower bounds. -/
theorem canonicalMemoriesWithEqualBytesAreEqual : Obligations.CanonicalMemoriesWithEqualBytesAreEqual :=
  fun _ _ => Memory.eq_of_read_eq

/-! ### Byte order of word operands -/

/-- R44, R62: an operand form of two bytes holds the word they join to. -/
theorem operand_of_two_bytes {o : Operand} {lo hi : Byte} (h : o.bytes = [lo, hi]) :
    o = .absolute (joinBytes hi lo) ∨ o = .absoluteX (joinBytes hi lo) ∨ o = .absoluteY (joinBytes hi lo) ∨
      o = .indirect (joinBytes hi lo) := by
  cases o with
  | absolute w | absoluteX w | absoluteY w | indirect w =>
    obtain ⟨rfl, rfl⟩ : lowByte w = lo ∧ highByte w = hi := by simpa [Operand.bytes] using h
    simp
  | _ => simp [Operand.bytes] at h

/-- Settles O13: an instruction of length 3 has both bytes as its operand's. -/
theorem wordOperandsAreLittleEndian : Obligations.WordOperandsAreLittleEndian := by
  intro opcode lo hi i rest hdec hlen
  cases hl : lookup opcode with
  | none => exact absurd (hdec.symm.trans (decode_absent hl _)) nofun
  | some d =>
    obtain ⟨j, hd, -, hbytes, hj, -⟩ := decode_admitted hl lo hi
    obtain ⟨rfl, -⟩ : i = j ∧ _ := by simpa using hdec.symm.trans hj
    have htwo : d.mode.operandBytes = 2 := by
      subst hd
      exact Nat.add_left_cancel hlen
    rw [htwo] at hbytes
    exact ⟨joinBytes hi lo, toNat_joinBytes hi lo, operand_of_two_bytes hbytes⟩

/-! ### The byte an instruction writes -/

theorem mem_mem_partsChanged {all : Bool} {m : Mnemonic} :
    Part.mem ∈ partsChanged all m ↔ m ∈ [.sta, .stx, .sty, .inc, .pha, .php] := by
  cases all <;> cases m <;> decide

theorem operand_of_push {i : Instr} (h : i.mnemonic = .pha ∨ i.mnemonic = .php) : i.operand = .implied := by
  cases i with
  | pha | php => rfl
  | _ => simp [Instr.mnemonic] at h

/-- R205: an instruction with a store address has an operand that resolves. -/
theorem exists_resolve_of_storeAddress {i : Instr} {s : State} {ea : Word} (h : storeAddress i s = some ea) :
    ∃ r, resolve i.operand s = .ok r := by
  cases hr : resolve i.operand s with
  | ok r => exact ⟨r, rfl⟩
  | error e =>
    cases hm : i.mnemonic with
    | pha => exact absurd hr (by simp [operand_of_push (.inl hm), resolve])
    | php => exact absurd hr (by simp [operand_of_push (.inr hm), resolve])
    | _ => simp [storeAddress, hm, hr] at h

/-- Every store address comes with a value to write there. -/
theorem exists_storeValue_of_storeAddress {i : Instr} {s : State} {ea : Word} (h : storeAddress i s = some ea) :
    ∃ v, storeValue i s = some v := by
  cases hm : i.mnemonic with
  | sta | stx | sty | pha | php => simp [storeValue, hm]
  | inc => simp [storeValue, hm, h]
  | _ => simp [storeAddress, hm] at h

/-- R43: a mnemonic that writes memory has a store address where its operand resolves. -/
theorem storeAddress_ne_none {i : Instr} {s : State} {r : Word} (hr : resolve i.operand s = .ok r)
    (hm : i.mnemonic ∈ [.sta, .stx, .sty, .inc, .pha, .php]) : storeAddress i s ≠ none := by
  simp only [List.mem_cons, List.not_mem_nil, or_false] at hm
  obtain hm | hm | hm | hm | hm | hm := hm <;> simp [storeAddress, hm, hr]

/-- R123 to R125, R151, R160, R161: the effect of an instruction with a store address writes the store value there and
no other byte; PC moved by `n` before it makes no difference. -/
theorem writesOnly_perform {i : Instr} {s : State} {r ea : Word} {v : Byte} (hr : resolve i.operand s = .ok r)
    (ha : storeAddress i s = some ea) (hv : storeValue i s = some v) (data : Byte) (n : Nat) :
    WritesOnly ea v s (perform i.mnemonic r data (s.advance n)) := by
  cases hm : i.mnemonic with
  | sta | stx | sty | pha | php =>
    simp only [storeAddress, storeValue, hm, hr, Option.some.injEq] at ha hv
    subst ha hv
    exact writesOnly_writeByte _ _ (s.advance n)
  | inc =>
    simp only [storeValue, hm, ha, Option.map_some, Option.some.injEq] at hv
    simp only [storeAddress, hm, hr, Option.some.injEq] at ha
    subst ha hv
    exact writesOnly_writeByte _ _ (s.advance n)
  | _ => simp [storeAddress, hm] at ha

/-- R43: an instruction with a store address completes, with the store value there as the only byte written. -/
theorem exec_of_storeAddress {i : Instr} {s : State} {ea : Word} {v : Byte} (ha : storeAddress i s = some ea)
    (hv : storeValue i s = some v) : ∃ t, exec i s = .next t ∧ PCPast i s t ∧ WritesOnly ea v s t := by
  obtain ⟨r, hr⟩ := exists_resolve_of_storeAddress ha
  have hjmp : i.mnemonic ≠ .jmp := fun hm => by simp [storeAddress, hm] at ha
  exact ⟨_, exec_of_resolve_ok hr, pcPast_of_advance (perform_pc hjmp r _ _), writesOnly_perform hr ha hv _ _⟩

/-- R43, R205: an instruction without a store address leaves memory as it is. -/
theorem exec_mem_of_no_storeAddress {i : Instr} {s t : State} (ha : storeAddress i s = none) (h : exec i s = .next t) :
    t.mem = s.mem :=
  exec_next (Q := fun t => t.mem = s.mem) h (fun _ _ => rfl) fun r hr =>
    (sameExcept_perform i.mnemonic r _ (s.advance i.length)).mem fun hmem =>
      storeAddress_ne_none hr (mem_mem_partsChanged.mp hmem) ha

/-- Settles O51: with a store address one byte is written, without one none is. -/
theorem memoryChangesOnlyAtStoreAddress : Obligations.MemoryChangesOnlyAtStoreAddress := by
  intro i s t b h hb
  cases ha : storeAddress i s with
  | none => rw [State.readByte, exec_mem_of_no_storeAddress ha h, State.readByte]
  | some ea =>
    obtain ⟨v, hv⟩ := exists_storeValue_of_storeAddress ha
    obtain ⟨t', ht', -, -, others⟩ := exec_of_storeAddress ha hv
    obtain rfl : t = t' := Host.Outcome.next.inj (h.symm.trans ht')
    exact others b fun hbe => hb (ha.trans (congrArg some hbe.symm))

/-- Settles O53: PC past the instruction is the store address, so the fetch reads the byte written. -/
theorem nextFetchSeesStore : Obligations.NextFetchSeesStore := by
  intro i s ea v ha hv hea
  obtain ⟨t, ht, hpc, written, -⟩ := exec_of_storeAddress ha hv
  obtain rfl : t.pc = ea := BitVec.eq_of_toNat_eq (hpc.trans hea.symm)
  exact ⟨t, ht, rfl, written, (State.head_fetchBytes t).trans (congrArg some written)⟩

end Sys2Proof.Machine
end

section
/-! # Encoding and decode (30_encoding.md)

Decoding has three parts: the opcode's descriptor, the operand bytes, and the instruction built from both. Each part
undoes the part of the encoding that it reads, and reads no more than that. -/

namespace Sys2Proof

/-! ### Operand bytes -/

/-- R61, R62: an operand form has the bytes that its mode consumes. -/
theorem Operand.length_bytes (o : Operand) : o.bytes.length = o.mode.operandBytes := by
  cases o <;> rfl

/-- R62: the bytes taken for an operand form are its own. -/
theorem Operand.takeOperands_bytes (o : Operand) (rest : List Byte) :
    ∃ lo hi, takeOperands o.mode.operandBytes (o.bytes ++ rest) = some (lo, hi, rest) ∧
      o.bytes = [lo, hi].take o.mode.operandBytes := by
  cases o with
  | implied => exact ⟨0, 0, rfl, rfl⟩
  | immediate b | zeroPage b | zeroPageX b | zeroPageY b | indirectX b | indirectY b => exact ⟨b, 0, rfl, rfl⟩
  | absolute w | absoluteX w | absoluteY w | indirect w => exact ⟨lowByte w, highByte w, rfl, rfl⟩

/-- R69: nothing but the operand bytes is taken. -/
theorem eq_append_of_takeOperands {n : Nat} {bytes rest : List Byte} {lo hi : Byte}
    (h : takeOperands n bytes = some (lo, hi, rest)) : bytes = [lo, hi].take n ++ rest := by
  unfold takeOperands at h
  split at h <;> cases h <;> rfl

/-! ### Every instruction is a row of the table -/

/-- R65, R66: Laws.TableRow, said of all instructions at once. -/
theorem tableRow (i : Instr) : Laws.TableRow.Statement i := by
  cases i <;> exact ⟨rfl, rfl, rfl⟩

theorem lookup_opcode (i : Instr) : lookup i.opcode = some i.descriptor := by
  obtain ⟨-, h, -⟩ := tableRow i
  exact h

/-- R62, R63: the descriptor of an instruction and its operand bytes build it again. What simp leaves are the forms with
a word operand, which is its two bytes joined. -/
theorem build_operand_bytes {i : Instr} {lo hi : Byte}
    (h : i.operand.bytes = [lo, hi].take i.operand.mode.operandBytes) : build i.descriptor lo hi = some i := by
  cases i <;>
    simp_all [Instr.descriptor, Instr.mnemonic, Instr.operand, Operand.mode, Operand.bytes, Mode.operandBytes, build]
  all_goals
    obtain ⟨rfl, rfl⟩ := h
    exact Machine.joinBytes_high_low _

/-! ### Both directions of the round trip -/

/-- R64, R69: decoding answers an instruction exactly when its three parts do. -/
theorem decode_cons_eq_ok_iff {opcode : Byte} {tail rest : List Byte} {i : Instr} :
    decode (opcode :: tail) = .ok (i, rest) ↔
      ∃ d lo hi, lookup opcode = some d ∧ takeOperands d.mode.operandBytes tail = some (lo, hi, rest) ∧
        build d lo hi = some i := by
  constructor
  · intro h
    simp only [decode] at h
    split at h
    · cases h
    · split at h
      · cases h
      · split at h <;> cases h
        exact ⟨_, _, _, ‹_›, ‹_›, ‹_›⟩
  · rintro ⟨d, lo, hi, hl, ht, hb⟩
    simp only [decode, hl, ht, hb]

/-- Settles O8: the opcode gives the descriptor, the operand bytes are taken back, and both build the instruction. -/
theorem decodeOfEncodeIsIdentity : Obligations.DecodeOfEncodeIsIdentity := by
  intro i rest
  obtain ⟨lo, hi, ht, hbytes⟩ := i.operand.takeOperands_bytes rest
  exact decode_cons_eq_ok_iff.mpr ⟨i.descriptor, lo, hi, lookup_opcode i, ht, build_operand_bytes hbytes⟩

/-- Settles O9: the instruction built has the opcode that was looked up and the operand bytes that were taken. -/
theorem decodedBytesAreTheEncoding : Obligations.DecodedBytesAreTheEncoding := by
  intro bytes i rest h
  cases bytes with
  | nil => cases h
  | cons opcode tail =>
    obtain ⟨d, lo, hi, hl, ht, hb⟩ := decode_cons_eq_ok_iff.mp h
    obtain ⟨-, hbytes⟩ := build_sound hb
    obtain ⟨j, hj, hop⟩ := build_of_lookup hl lo hi
    obtain rfl : i = j := Option.some.inj (hb.symm.trans hj)
    rw [encode, hop, hbytes, List.cons_append, ← eq_append_of_takeOperands ht]

/-! ### Lengths, absent opcodes and sample words -/

/-- R61: the opcode byte and the operand bytes of the mode. -/
theorem length_encode (i : Instr) : (encode i).length = 1 + i.operand.mode.operandBytes := by
  rw [encode, List.length_cons, Operand.length_bytes, Nat.add_comm]

/-- Settles O10: the length of an instruction is its mode's. -/
theorem lengthIsOnePlusOperandBytes : Obligations.LengthIsOnePlusOperandBytes :=
  ⟨fun i => ⟨length_encode i, (length_encode i).symm⟩, by decide⟩

/-- R66, R68: the table's 62 rows leave 194 opcode bytes absent. -/
theorem count_absent_opcodes :
    ((List.range 256).filter (fun n => (lookup (BitVec.ofNat 8 n)).isNone)).length = 194 := by
  decide +kernel

/-- Settles O11: an opcode is looked up to nothing or to the descriptor of the instruction it decodes to. -/
theorem absentOpcodesAreRejected : Obligations.AbsentOpcodesAreRejected := by
  refine ⟨count_absent_opcodes, fun _ rest h => decode_absent h rest, fun opcode lo hi d h => ?_⟩
  obtain ⟨i, hd, -, -, hdec, -⟩ := decode_admitted h lo hi
  exact ⟨i, _, hdec, hd⟩

/-- Settles O12, by running the decoder on the ten words. -/
theorem sampleWordsDecode : Obligations.SampleWordsDecode := by
  unfold Obligations.SampleWordsDecode
  decide

end Sys2Proof
end

section
/-! # The execution engine (40_execution_engine.md) -/

namespace Sys2Proof.Machine

/-! ### What a step answers -/

/-- Settles O23, by the flags and the frame of setNZ. -/
theorem setNZFollowsValue : Obligations.SetNZFollowsValue :=
  fun v s => ⟨showsNZ_setNZ v s, sameExcept_setNZ v s, State.setNZ_pc v s⟩

/-- Settles O14: the step of a Running engine that fetches an instruction. -/
theorem stepRunsDecodedInstruction : Obligations.StepRunsDecodedInstruction :=
  fun _ _ rest hr hdec => step_of_fetches hr ⟨rest, hdec⟩

/-- R81, R83, R205: all that a step of a Running engine can be, with the state it answers. -/
theorem running_step_cases {s : State} (hr : s.status = .running) :
    (lookup s.opcodeAtPC = none ∧ step s = .next (s.raiseError (.unknownOpcode s.opcodeAtPC))) ∨
      ∃ i, Fetches s i ∧
        ((∃ e, resolve i.operand s = .error e ∧ step s = .next (s.raiseError e)) ∨
          ∃ ea, resolve i.operand s = .ok ea ∧
            step s = .next (perform i.mnemonic ea (dataAt i.operand ea s) (s.advance i.length))) := by
  obtain ⟨hs, -⟩ | ⟨-, hl, h⟩ | ⟨-, i, hf, -, h⟩ := step_cases s
  · exact absurd hr hs
  · exact .inl ⟨hl, h⟩
  · refine .inr ⟨i, hf, ?_⟩
    cases hres : resolve i.operand s with
    | error e => exact .inl ⟨e, rfl, h.trans (exec_of_resolve_error hres)⟩
    | ok ea => exact .inr ⟨ea, rfl, h.trans (exec_of_resolve_ok hres)⟩

/-- Settles O44: a stopped engine answers itself, a Running one an error outcome or an effect. -/
theorem everyStepAnswersNext : Obligations.EveryStepAnswersNext := by
  intro s
  by_cases hr : s.status = .running
  · obtain ⟨-, h⟩ | ⟨i, -, ⟨e, -, h⟩ | ⟨ea, -, h⟩⟩ := running_step_cases hr <;> exact ⟨_, h⟩
  · exact ⟨s, step_of_stopped hr⟩

/-! ### Runs -/

theorem steps_of_fixed {s : State} (h : step s = .next s) (n : Nat) : steps n s = s := by
  induction n with
  | zero => rfl
  | succ n ih => rw [steps, stepState_of_next h, ih]

/-- Settles O45: a stopped engine takes no step, so it is a fixed point of every number of steps. -/
theorem stoppedEngineStays : Obligations.StoppedEngineStays :=
  fun _ h => ⟨step_of_stopped h, steps_of_fixed (step_of_stopped h)⟩

theorem steps_add (m n : Nat) (s : State) : steps (m + n) s = steps n (steps m s) := by
  induction m generalizing s with
  | zero => rw [Nat.zero_add, steps]
  | succ m ih => rw [Nat.succ_add, steps, ih, steps]

/-- R80: once a run has reached a stopped engine, more steps reach no other state. -/
theorem steps_of_le {s : State} {m n : Nat} (hs : (steps m s).status ≠ .running) (h : m ≤ n) :
    steps n s = steps m s := by
  obtain ⟨k, rfl⟩ := Nat.exists_eq_add_of_le h
  rw [steps_add, steps_of_fixed (step_of_stopped hs)]

/-- Settles O55: of two runs from one state, the longer stays where the shorter ends. -/
theorem runReportsOneTerminalState : Obligations.RunReportsOneTerminalState := by
  refine ⟨?_, fun s h => ⟨0, rfl, h⟩⟩
  rintro s _ _ ⟨m, rfl, hm⟩ ⟨n, rfl, hn⟩
  obtain h | h := Nat.le_total m n
  · exact (steps_of_le hm h).symm
  · exact steps_of_le hn h

/-! ### A jump to itself -/

/-- R170: JMP Absolute to its own address answers the state it starts in. -/
theorem step_of_jump_to_itself {s : State} (hr : s.status = .running) (h : Fetches s (.jmpAbsolute s.pc)) :
    step s = .next s :=
  step_of_fetches hr h

/-- Settles O56: the state is a fixed point of step, so every number of steps leaves it Running. -/
theorem jumpToItselfNeverEnds : Obligations.JumpToItselfNeverEnds := by
  intro s hr h
  have fixed : ∀ n, steps n s = s := steps_of_fixed (step_of_jump_to_itself hr h)
  constructor
  · intro n e
    rw [fixed, hr]
    exact nofun
  · rintro ⟨_, n, rfl, hstop⟩
    exact hstop (by rw [fixed, hr])

/-! ### How the status moves -/

/-- R82: the byte at PC is the opcode of the instruction fetched there. -/
theorem opcodeAtPC_of_fetches {s : State} {i : Instr} (h : Fetches s i) : s.opcodeAtPC = i.opcode := by
  obtain ⟨rest, hdec⟩ := h
  exact (List.cons.inj (decodedBytesAreTheEncoding _ _ _ hdec)).1

theorem lookup_of_fetches {s : State} {i : Instr} (h : Fetches s i) : lookup s.opcodeAtPC = some i.descriptor :=
  (congrArg lookup (opcodeAtPC_of_fetches h)).trans (lookup_opcode i)

/-- R66: 0x00 is the opcode of BRK and of no other instruction. -/
theorem opcode_eq_zero_iff {i : Instr} : i.opcode = 0x00 ↔ i.mnemonic = .brk := by
  cases i <;> simp [Instr.opcode, Instr.mnemonic]

theorem operand_of_brk {i : Instr} (h : i.mnemonic = .brk) : i.operand = .implied := by
  cases i with
  | brk => rfl
  | _ => exact Mnemonic.noConfusion h

/-- R176: of the effects, only BRK's moves the status. -/
theorem perform_status {m : Mnemonic} (h : m ≠ .brk) (ea : Word) (v : Byte) (s : State) :
    (perform m ea v s).status = s.status :=
  (sameExcept_perform m ea v s).status (mt status_mem_partsChanged.mp h)

/-- R200: what raises `e` in a step at `s`: decode on an absent opcode byte, or the resolver on the fetched operand. -/
def Raises (s : State) (e : EngineError) : Prop :=
  (lookup s.opcodeAtPC = none ∧ e = .unknownOpcode s.opcodeAtPC) ∨ ∃ i, Fetches s i ∧ resolve i.operand s = .error e

theorem raises_iff_of_absent {s : State} (h : lookup s.opcodeAtPC = none) (e : EngineError) :
    Raises s e ↔ e = .unknownOpcode s.opcodeAtPC := by
  have none_fetched : ∀ i, ¬ Fetches s i := fun i hf => by simp [lookup_of_fetches hf] at h
  simp [Raises, h, none_fetched]

theorem raises_iff_of_fetches {s : State} {i : Instr} (h : Fetches s i) (e : EngineError) :
    Raises s e ↔ resolve i.operand s = .error e := by
  have only_i : ∀ j, Fetches s j ↔ j = i := fun j => ⟨fun hj => fetches_unique hj h, fun hj => hj ▸ h⟩
  simp [Raises, lookup_of_fetches h, only_i]

/-- Settles O46: an error outcome records what raised it, and of the effects only BRK's stops the engine. -/
theorem statusMovesOnlyAsStated : Obligations.StatusMovesOnlyAsStated := by
  intro s t hr hst
  change _ ∧ _ ∧ ∀ e, _ ↔ Raises s e
  obtain ⟨hl, h⟩ | ⟨i, hf, ⟨e, he, h⟩ | ⟨ea, hok, h⟩⟩ := running_step_cases hr <;>
    obtain rfl := Host.Outcome.next.inj (h.symm.trans hst)
  · have hop : s.opcodeAtPC ≠ 0x00 := fun h0 => absurd (h0 ▸ hl) (by decide)
    refine ⟨iff_of_false nofun hop, nofun, fun e => ?_⟩
    simp [raises_iff_of_absent hl, eq_comm]
  · have hop : s.opcodeAtPC ≠ 0x00 := fun h0 => by
      have hbrk := opcode_eq_zero_iff.mp ((opcodeAtPC_of_fetches hf).symm.trans h0)
      simp [operand_of_brk hbrk, resolve] at he
    refine ⟨iff_of_false nofun hop, nofun, fun e' => ?_⟩
    simp [raises_iff_of_fetches hf, he]
  · rw [opcodeAtPC_of_fetches hf, opcode_eq_zero_iff]
    by_cases hm : i.mnemonic = .brk
    · have hlen : i.length = 1 := by rw [Instr.length, operand_of_brk hm]; rfl
      rw [hm, hlen]
      refine ⟨iff_of_true rfl rfl, fun _ => rfl, fun e => ?_⟩
      simp [raises_iff_of_fetches hf, hok, perform]
    · have running : (perform i.mnemonic ea (dataAt i.operand ea s) (s.advance i.length)).status = .running :=
        (perform_status hm ..).trans hr
      simp [raises_iff_of_fetches hf, hok, hm, running]

end Sys2Proof.Machine
end

section
/-! # A step is the spec's pseudocode

What each piece of the pseudocode answers from a state, in the terms of the model: first the reads, writes and fetches,
then `resolve` and `execute`, then the body of `step`. -/

namespace Sys2Proof.Machine

/-! ### Reads, writes and fetches -/

/-- R8: a piece of pseudocode that answers hands its answer and its state to the next one. -/
theorem run_bind_of_ok {α β : Type} {x : Pseudo α} {f : α → Pseudo β} {s t : State} {a : α}
    (h : x.run s = .ok (a, t)) : (x >>= f).run s = (f a).run t := by
  rw [StateT.run_bind, h]
  rfl

/-- R8: a raise ends the pseudocode. -/
theorem run_bind_of_error {α β : Type} {x : Pseudo α} {f : α → Pseudo β} {s : State} {e : EngineError}
    (h : x.run s = .error e) : (x >>= f).run s = .error e := by
  rw [StateT.run_bind, h]
  rfl

theorem toNat_le_max (ea : Word) : ea.toNat ≤ 0xFFFF :=
  Nat.le_of_lt_succ ea.isLt

/-- R41: a read at a 16-bit address raises nothing. -/
theorem run_pseudoRead (ea : Word) (s : State) : (pseudoRead ea.toNat).run s = .ok (s.readByte ea, s) := by
  rw [pseudoRead, if_neg (Nat.not_lt.mpr (toNat_le_max ea))]
  rfl

/-- R42: a write at a 16-bit address raises nothing. -/
theorem run_pseudoWrite (ea : Word) (v : Byte) (s : State) :
    (pseudoWrite ea.toNat v).run s = .ok ((), s.writeByte ea v) := by
  rw [pseudoWrite, if_neg (Nat.not_lt.mpr (toNat_le_max ea))]
  rfl

theorem State.advance_zero (s : State) : s.advance 0 = s := by
  simp [State.advance, State.writePC]

theorem State.advance_advance (m n : Nat) (s : State) : (s.advance m).advance n = s.advance (m + n) := by
  simp [State.advance, State.writePC, BitVec.add_assoc, BitVec.ofNat_add]

theorem run_pseudoFetch8 (s : State) : pseudoFetch8.run s = .ok (s.readByte s.pc, s.advance 1) :=
  (run_bind_of_ok (StateT.run_get s)).trans (run_bind_of_ok (run_pseudoRead s.pc s))

/-- The operand word whose low byte is at PC. -/
def State.wordAtPC (s : State) : Word :=
  joinBytes (s.readByte (s.pc + 1)) (s.readByte s.pc)

theorem run_pseudoFetch16 (s : State) : pseudoFetch16.run s = .ok (s.wordAtPC.toNat, s.advance 2) := by
  rw [pseudoFetch16, run_bind_of_ok (run_pseudoFetch8 s), run_bind_of_ok (run_pseudoFetch8 _),
    State.advance_advance, State.wordAtPC, toNat_joinBytes]
  rfl

/-! ### Addresses -/

theorem run_pseudoReadZpPtr (z : Byte) (s : State) :
    (pseudoReadZpPtr z.toNat).run s = .ok ((readZpPtr z s).toNat, s) := by
  have second : (z.toNat + 1) % 256 = (zext16 (z + 1)).toNat := by simp [BitVec.toNat_add]
  rw [pseudoReadZpPtr, second, ← toNat_zext16 z, run_bind_of_ok (run_pseudoRead _ s),
    run_bind_of_ok (run_pseudoRead _ s), readZpPtr, toNat_joinBytes]
  rfl

/-- R109, R110, R114: the exact sum is the checked address. -/
theorem run_pseudoIndexed (base : Word) (index : Byte) (s : State) :
    (pseudoIndexed base.toNat index).run s =
      (checkedAddress (base.toNat + index.toNat)).map fun ea => (ea.toNat, s) := by
  unfold pseudoIndexed
  obtain ⟨hle, ea, hok, hea⟩ | ⟨hgt, herr⟩ := checkedAddress_cases (base.toNat + index.toNat)
  · rw [hok, Except.map, hea, if_neg (Nat.not_lt.mpr hle)]
    rfl
  · rw [herr, if_pos hgt]
    rfl

/-- R111: an indirect operand raises exactly where the pointer's second byte is out of range. -/
theorem run_pseudoResolve_indirect (s : State) :
    (pseudoResolve .indirect).run s = (readPointer s.wordAtPC s).map fun ea => (ea.toNat, s.advance 2) := by
  rw [pseudoResolve, run_bind_of_ok (run_pseudoFetch16 s), run_bind_of_ok (run_pseudoRead s.wordAtPC _), readPointer,
    State.memRead_word]
  obtain ⟨hle, ea, -, hea⟩ | ⟨hgt, -⟩ := checkedAddress_cases (s.wordAtPC.toNat + 1)
  · rw [if_neg (Nat.not_lt.mpr hle), ← hea, State.memRead_word]
    refine (run_bind_of_ok (run_pseudoRead ea (s.advance 2))).trans ?_
    simp only [Except.map, toNat_joinBytes]
    rfl
  · rw [if_pos hgt, State.memRead_of_gt hgt]
    rfl

theorem eq_wordAtPC {w : Word} {s : State}
    (h : [lowByte w, highByte w] = [s.readByte s.pc, s.readByte (s.pc + 1)]) : w = s.wordAtPC := by
  obtain ⟨hlo, hhi⟩ : lowByte w = s.readByte s.pc ∧ highByte w = s.readByte (s.pc + 1) := by simpa using h
  rw [State.wordAtPC, ← hlo, ← hhi, joinBytes_high_low]

/-- R103 to R114: at an operand's bytes, the spec's `resolve` of its mode answers what the model's does of the operand,
with PC past the bytes. -/
theorem run_pseudoResolve {o : Operand} {s : State}
    (h : o.bytes = [s.readByte s.pc, s.readByte (s.pc + 1)].take o.mode.operandBytes) :
    (pseudoResolve o.mode).run s = (resolve o s).map fun ea => (ea.toNat, s.advance o.mode.operandBytes) := by
  cases o with
  | implied =>
    have stays : s.advance 0 = s := State.advance_zero s
    exact congrArg (fun t => Except.ok (0, t)) stays.symm
  | immediate b | zeroPage b =>
    obtain rfl : b = s.readByte s.pc := List.head_eq_of_cons_eq h
    rw [resolve, Except.map, toNat_zext16]
    exact run_bind_of_ok (run_pseudoFetch8 s)
  | zeroPageX z | zeroPageY z =>
    obtain rfl : z = s.readByte s.pc := List.head_eq_of_cons_eq h
    rw [resolve, Except.map, toNat_zext16, BitVec.toNat_add]
    exact run_bind_of_ok (run_pseudoFetch8 s)
  | absolute w =>
    obtain rfl := eq_wordAtPC h
    exact run_pseudoFetch16 s
  | absoluteX base | absoluteY base =>
    obtain rfl := eq_wordAtPC h
    exact (run_bind_of_ok (run_pseudoFetch16 s)).trans (run_pseudoIndexed _ _ (s.advance 2))
  | indirect p =>
    obtain rfl := eq_wordAtPC h
    exact run_pseudoResolve_indirect s
  | indirectX z =>
    obtain rfl : z = s.readByte s.pc := List.head_eq_of_cons_eq h
    have pointer := run_pseudoReadZpPtr (s.readByte s.pc + s.x) (s.advance 1)
    rw [BitVec.toNat_add] at pointer
    exact (run_bind_of_ok (run_pseudoFetch8 s)).trans pointer
  | indirectY z =>
    obtain rfl : z = s.readByte s.pc := List.head_eq_of_cons_eq h
    exact (run_bind_of_ok (run_pseudoFetch8 s)).trans <|
      (run_bind_of_ok (run_pseudoReadZpPtr _ (s.advance 1))).trans (run_pseudoIndexed _ s.y (s.advance 1))

/-! ### Execute -/

theorem run_pseudoOperand (o : Operand) (ea : Word) (s : State) :
    (pseudoOperand o.mode ea.toNat).run s = .ok (dataAt o ea s, s) := by
  unfold pseudoOperand dataAt
  split
  · rfl
  · exact run_pseudoRead ea s

theorem run_pseudoStackAddr (s : State) : pseudoStackAddr.run s = .ok ((s.stackAddr s.sp).toNat, s) := rfl

/-- R140, R141, R144: the flags of a transfer to the register `r`. -/
theorem run_transferNZ (s : State) (r : State → Byte) :
    (do if (← get).config.transferNZAll then pseudoSetNZ (r (← get)) : Pseudo Unit).run s =
      .ok ((), s.setNZIfTransferAll (r s)) := by
  refine (run_bind_of_ok (StateT.run_get s)).trans ?_
  unfold State.setNZIfTransferAll
  split <;> rfl

/-- R120 to R176: the spec's `execute` of a mnemonic has its effect, and raises nothing at a 16-bit address. -/
theorem run_pseudoExecute (m : Mnemonic) (o : Operand) (ea : Word) (s : State) :
    (pseudoExecute m o.mode ea.toNat).run s = .ok ((), perform m ea (dataAt o ea s) s) := by
  cases m with
  | lda | ldx | ldy | ora => exact run_bind_of_ok (run_pseudoOperand o ea s)
  | sta | stx | sty => exact run_pseudoWrite ea _ s
  | inc => exact (run_bind_of_ok (run_pseudoRead ea s)).trans (run_bind_of_ok (run_pseudoWrite ea _ s))
  | tax => exact run_transferNZ (s.writeX s.a) State.x
  | tay => exact run_transferNZ (s.writeY s.a) State.y
  | tsx => exact run_transferNZ (s.writeX s.sp) State.x
  | pha | php =>
    exact (run_bind_of_ok (run_pseudoStackAddr s)).trans <|
      (run_bind_of_ok (StateT.run_get s)).trans (run_bind_of_ok (run_pseudoWrite _ _ s))
  | pla | plp =>
    exact (run_bind_of_ok (StateT.run_modify State.popSP s)).trans <|
      (run_bind_of_ok (run_pseudoStackAddr s.popSP)).trans (run_bind_of_ok (run_pseudoRead _ s.popSP))
  | jmp =>
    have word : BitVec.ofNat 16 ea.toNat = ea := by simp
    exact congrArg (fun w => Except.ok ((), s.writePC w)) word
  | txa | tya | txs | inx | iny | clc | cld | cli | clv | brk => rfl

/-! ### The body of step -/

theorem resolve_advance (o : Operand) (n : Nat) (s : State) : resolve o (s.advance n) = resolve o s := by
  cases o <;> rfl

theorem run_pseudoStepBody_of_absent {s : State} (h : lookup s.opcodeAtPC = none) :
    pseudoStepBody.run s = .error (.unknownOpcode s.opcodeAtPC) := by
  rw [pseudoStepBody, run_bind_of_ok (run_pseudoFetch8 s), ← State.opcodeAtPC, h]
  rfl

/-- R82: the operand bytes of the instruction fetched stand after the opcode byte. -/
theorem operand_bytes_of_fetches {s : State} {i : Instr} (h : Fetches s i) :
    i.operand.bytes = [s.readByte (s.pc + 1), s.readByte (s.pc + 2)].take i.operand.mode.operandBytes := by
  obtain ⟨rest, hdec⟩ := h
  have tail : [s.readByte (s.pc + 1), s.readByte (s.pc + 2)] = i.operand.bytes ++ rest :=
    (List.cons.inj (decodedBytesAreTheEncoding _ _ _ hdec)).2
  rw [tail, ← Operand.length_bytes, List.take_left]

/-- R81: the body of the spec's `step` raises where the operand does, and has the mnemonic's effect otherwise. -/
theorem run_pseudoStepBody_of_fetches {s : State} {i : Instr} (h : Fetches s i) :
    pseudoStepBody.run s = (resolve i.operand s).map fun ea =>
      ((), perform i.mnemonic ea (dataAt i.operand ea s) (s.advance i.length)) := by
  have hbytes : i.operand.bytes = [(s.advance 1).readByte (s.advance 1).pc,
      (s.advance 1).readByte ((s.advance 1).pc + 1)].take i.operand.mode.operandBytes := by
    have second : s.pc + 1 + 1 = s.pc + 2 := BitVec.add_assoc ..
    exact second ▸ operand_bytes_of_fetches h
  have hres := run_pseudoResolve hbytes
  rw [resolve_advance, State.advance_advance] at hres
  rw [pseudoStepBody, run_bind_of_ok (run_pseudoFetch8 s), ← State.opcodeAtPC, lookup_of_fetches h]
  cases hr : resolve i.operand s with
  | error e => exact run_bind_of_error (hres.trans (congrArg _ hr))
  | ok ea =>
    exact (run_bind_of_ok (hres.trans (congrArg _ hr))).trans
      (run_pseudoExecute i.mnemonic i.operand ea (s.advance i.length))

theorem pseudoStep_of_error {s : State} {e : EngineError} (h : pseudoStepBody.run s = .error e) :
    pseudoStep s = s.raiseError e := by
  rw [pseudoStep, h]
  rfl

theorem pseudoStep_of_ok {s t : State} (h : pseudoStepBody.run s = .ok ((), t)) : pseudoStep s = t := by
  rw [pseudoStep, h]

/-- Settles O16: an absent opcode, a raising operand and an effect are the cases of both a step and the pseudocode. -/
theorem stepMatchesPseudocode : Obligations.StepMatchesPseudocode := by
  intro s hr
  obtain ⟨hl, hs⟩ | ⟨i, hf, ⟨e, he, hs⟩ | ⟨ea, hok, hs⟩⟩ := running_step_cases hr
  · rw [hs, pseudoStep_of_error (run_pseudoStepBody_of_absent hl)]
  · rw [hs, pseudoStep_of_error ((run_pseudoStepBody_of_fetches hf).trans (congrArg _ he))]
  · rw [hs, pseudoStep_of_ok ((run_pseudoStepBody_of_fetches hf).trans (congrArg _ hok))]

end Sys2Proof.Machine
end

section
/-! # Addressing modes (41_addressing_modes.md)

What each operand form resolves to, from what the checked address and the two pointer reads answer. -/

namespace Sys2Proof.Machine

/-! ### Addresses and pointers -/

theorem exists_checkedAddress {n : Nat} (h : n ≤ 0xFFFF) : ∃ ea : Word, checkedAddress n = .ok ea ∧ ea.toNat = n := by
  obtain ⟨-, found⟩ | ⟨hgt, -⟩ := checkedAddress_cases n
  · exact found
  · omega

theorem checkedAddress_word (ea : Word) : checkedAddress ea.toNat = .ok ea := by
  rw [checkedAddress_ok (toNat_le_max ea), BitVec.ofNat_toNat, BitVec.setWidth_eq]

/-- R106, R107: the index sum of a zero-page address stays in page 0. -/
theorem toNat_zext16_add (z index : Byte) : (zext16 (z + index)).toNat = (z.toNat + index.toNat) % 256 := by
  rw [toNat_zext16, BitVec.toNat_add]

/-- R111: below 0xFFFF both bytes of the pointer are in range. -/
theorem readPointer_of_lt {p : Word} (h : p.toNat < 0xFFFF) (s : State) :
    readPointer p s = .ok (joinBytes (Memory.read s.mem (p.toNat + 1)) (Memory.read s.mem p.toNat)) := by
  simp only [readPointer, State.memRead_of_le h.le, State.memRead_of_le (Nat.succ_le_of_lt h)]

/-- R111: the second byte of the pointer 0xFFFF is out of range. -/
theorem readPointer_last (s : State) : readPointer 0xFFFF s = .error (.addressOutOfRange 0x10000) := by
  have second : s.memRead ((0xFFFF : Word).toNat + 1) = .error (.addressOutOfRange 0x10000) :=
    State.memRead_of_gt (by decide) s
  simp only [readPointer, State.memRead_word, second]

/-! ### The modes of a mnemonic -/

/-- R66: an instruction's mode is one that its mnemonic admits. -/
theorem mode_mem_modes (i : Instr) : i.operand.mode ∈ i.mnemonic.modes := by
  obtain ⟨admitted, -, -⟩ := tableRow i
  exact List.contains_iff_mem.mp admitted

theorem zeroPageY_mem_modes {m : Mnemonic} : .zeroPageY ∈ m.modes ↔ m = .ldx ∨ m = .stx := by
  cases m <;> decide

theorem indirect_mem_modes {m : Mnemonic} : .indirect ∈ m.modes ↔ m = .jmp := by
  cases m <;> decide

/-! ### The obligations -/

/-- Settles O18: the index sum is one of bytes, and the table has ZeroPageY for LDX and STX only. -/
theorem zeroPageIndexWraps : Obligations.ZeroPageIndexWraps :=
  ⟨fun z s => ⟨⟨_, rfl, toNat_zext16_add z s.x⟩, ⟨_, rfl, toNat_zext16_add z s.y⟩, rfl, rfl⟩,
    fun i hmode => zeroPageY_mem_modes.mp (hmode ▸ mode_mem_modes i)⟩

/-- Settles O20: Indirect is the read of its pointer, and the table has it for JMP only. -/
theorem absoluteAndIndirectResolve : Obligations.AbsoluteAndIndirectResolve := by
  refine ⟨fun w s => ⟨rfl, rfl, rfl, fun below => ?_, fun last => ?_⟩,
    fun i hmode => indirect_mem_modes.mp (hmode ▸ mode_mem_modes i)⟩
  · exact ⟨_, readPointer_of_lt below s, toNat_joinBytes _ _⟩
  · obtain rfl : w = 0xFFFF := BitVec.eq_of_toNat_eq last
    exact readPointer_last s

/-- Settles O21: the pointer read of IndirectX is its address, that of IndirectY the base of an exact sum. -/
theorem zeroPagePointerModesResolve : Obligations.ZeroPagePointerModesResolve := by
  intro z s pointerAt
  have pointer : ∀ b : Byte, (readZpPtr b s).toNat = pointerAt b.toNat := fun b => toNat_readZpPtr b s
  have indexed : resolve (.indirectY z) s = checkedAddress (pointerAt z.toNat + s.y.toNat) := by
    rw [resolve, pointer]
  refine ⟨⟨readZpPtr (z + s.x) s, rfl, ?_⟩, fun inRange => ?_, fun outOfRange => ?_, rfl, rfl⟩
  · rw [pointer, BitVec.toNat_add]
  · exact indexed ▸ exists_checkedAddress inRange
  · exact indexed ▸ checkedAddress_error outOfRange

/-- Settles O17: zero extension keeps the byte, and its low byte is the immediate data. -/
theorem directModesResolve : Obligations.DirectModesResolve := by
  intro b s
  have page0 : (zext16 b).toNat ≤ 0x00FF := toNat_zext16 b ▸ Nat.le_of_lt_succ b.isLt
  have data : operandData (.immediate b) s = .ok b := congrArg Except.ok (lowByte_zext16 b)
  exact ⟨rfl, rfl, ⟨_, rfl, toNat_zext16 b, data⟩, rfl, ⟨_, rfl, toNat_zext16 b, page0⟩, rfl⟩

/-- Settles O19: both forms resolve to the checked address of the exact sum. -/
theorem absoluteIndexIsExact : Obligations.AbsoluteIndexIsExact :=
  fun _ _ => ⟨exists_checkedAddress, checkedAddress_error, exists_checkedAddress, checkedAddress_error, rfl, rfl⟩

/-! ### The two indirect modes at one index -/

/-- The state at reset with both index registers at `v` and the memory `mem`. -/
def bothIndexed (v : Byte) (mem : Memory) : State :=
  { State.reset with x := v, y := v, mem := mem }

/-- R115: over zero bytes IndirectX finds address 0 whatever the index, and IndirectY the index. -/
theorem resolve_bothIndexed_nil (v : Byte) :
    resolve (.indirectX 0) (bothIndexed v []) = .ok 0 ∧ resolve (.indirectY 0) (bothIndexed v []) = .ok (zext16 v) := by
  have byte : ∀ addr, (bothIndexed v []).readByte addr = 0 := fun _ => rfl
  have pointer : ∀ z, readZpPtr z (bothIndexed v []) = 0 := fun z => by rw [readZpPtr, byte, byte]; rfl
  have sum : (0 : Word).toNat + v.toNat = (zext16 v).toNat := by rw [toNat_zext16]; exact Nat.zero_add _
  refine ⟨congrArg Except.ok (pointer _), ?_⟩
  rw [resolve, pointer]
  exact (congrArg checkedAddress sum).trans (checkedAddress_word _)

/-- Settles O22: both indices 0 leave the pointer at the operand byte; any other index differs over zero bytes; the
last state is the first row of L1-6. -/
theorem indirectModesAgreeAtIndexZero : Obligations.IndirectModesAgreeAtIndexZero := by
  refine ⟨fun z s hx hy => ?_, fun v hv => ⟨0, bothIndexed v [], rfl, rfl, fun same => hv ?_⟩,
    0x10, bothIndexed 2 [(0x10, 0x34), (0x11, 0x12), (0x12, 0x78), (0x13, 0x56)], by decide⟩
  · calc resolve (.indirectX z) s = .ok (readZpPtr z s) := by rw [resolve, hx, add_zero]
      _ = checkedAddress (readZpPtr z s).toNat := (checkedAddress_word _).symm
      _ = resolve (.indirectY z) s := by rw [resolve, hy]; rfl
  · obtain ⟨hX, hY⟩ := resolve_bothIndexed_nil v
    have zero : 0 = zext16 v := Except.ok.inj (hX.symm.trans (same.trans hY))
    calc v = lowByte (zext16 v) := (lowByte_zext16 v).symm
      _ = 0 := congrArg lowByte zero.symm

end Sys2Proof.Machine
end

section
/-! # Loads and stores (42_load_store.md)

A load or store that completes has its effect on the state with PC past the instruction. What every such effect leaves
unchanged is said once for a value put through setNZ and once for a byte written. -/

namespace Sys2Proof.Machine

section

variable {i : Instr} {s : State} {v : Byte}

/-! ### Effects on the state past the instruction -/

/-- R24, R86: what setNZ shows and leaves, after an effect on the state past the instruction that changed the part `r`
and led to `w`. -/
theorem setNZ_after {r : Part} {w : State} (hpc : w.pc = (s.advance i.length).pc)
    (frame : SameExcept [r] (s.advance i.length) w) :
    ShowsNZ v (w.setNZ v) ∧ PCPast i s (w.setNZ v) ∧
      SameExcept [r, .flag .negative, .flag .zero] s (w.setNZ v) :=
  ⟨showsNZ_setNZ v w, pcPast_of_advance hpc, (sameExcept_writePC _ s).trans (frame.trans (sameExcept_setNZ v w))⟩

/-- R24, R42: what a byte written to the state past the instruction changes and leaves. -/
theorem writeByte_after (ea : Word) :
    WritesOnly ea v s ((s.advance i.length).writeByte ea v) ∧ PCPast i s ((s.advance i.length).writeByte ea v) ∧
      SameExcept [.mem] s ((s.advance i.length).writeByte ea v) :=
  ⟨writesOnly_writeByte ea v (s.advance i.length), pcPast_of_advance rfl,
    (sameExcept_writePC _ s).trans (sameExcept_writeByte ea v _)⟩

/-! ### Stores -/

/-- R123 to R125: `i` is a store, and `v` is the register it stores. -/
def Stores (i : Instr) (s : State) (v : Byte) : Prop :=
  i.mnemonic = .sta ∧ v = s.a ∨ i.mnemonic = .stx ∧ v = s.x ∨ i.mnemonic = .sty ∧ v = s.y

/-- R123 to R125: a store whose operand resolves writes its register there. -/
theorem exec_of_stores {ea : Word} (h : Stores i s v) (hr : resolve i.operand s = .ok ea) :
    exec i s = .next ((s.advance i.length).writeByte ea v) := by
  obtain ⟨hm, rfl⟩ | ⟨hm, rfl⟩ | ⟨hm, rfl⟩ := h
  · exact (exec_sta hm s).trans (withAddress_ok hr)
  · exact (exec_stx hm s).trans (withAddress_ok hr)
  · exact (exec_sty hm s).trans (withAddress_ok hr)

/-- R41, R120: the byte just written at the address an operand resolves to is the operand's data. -/
theorem dataIs_writeByte {o : Operand} {ea : Word} (hmode : o.mode ≠ .immediate)
    (hr : resolve o (s.writeByte ea v) = .ok ea) : DataIs o (s.writeByte ea v) v :=
  .inr ⟨hmode, ea, hr, by simp⟩

end

/-! ### The obligations -/

/-- Settles O26: each load writes its register and puts the value through setNZ. -/
theorem loadsWriteRegister : Obligations.LoadsWriteRegister := by
  intro i s v h
  have data : operandData i.operand s = .ok v := operandData_of_dataIs h
  refine ⟨fun hm => ?_, fun hm => ?_, fun hm => ?_⟩
  · exact ⟨_, (exec_lda hm s).trans (withData_ok data), rfl, setNZ_after rfl (sameExcept_writeA v _)⟩
  · exact ⟨_, (exec_ldx hm s).trans (withData_ok data), rfl, setNZ_after rfl (sameExcept_writeX v _)⟩
  · exact ⟨_, (exec_ldy hm s).trans (withData_ok data), rfl, setNZ_after rfl (sameExcept_writeY v _)⟩

/-- Settles O27: each store is one byte written. -/
theorem storesWriteOneByte : Obligations.StoresWriteOneByte :=
  fun _ _ ea hr =>
    ⟨fun hm => ⟨_, exec_of_stores (.inl ⟨hm, rfl⟩) hr, writeByte_after ea⟩,
      fun hm => ⟨_, exec_of_stores (.inr (.inl ⟨hm, rfl⟩)) hr, writeByte_after ea⟩,
      fun hm => ⟨_, exec_of_stores (.inr (.inr ⟨hm, rfl⟩)) hr, writeByte_after ea⟩⟩

/-- Settles O43: the byte the store has written is the data of the load. -/
theorem storeThenLoadReturnsValue : Obligations.StoreThenLoadReturnsValue := by
  intro i j s t ea v hstore hmode hi ht hj
  obtain rfl := Host.Outcome.next.inj ((exec_of_stores hstore hi).symm.trans ht)
  obtain ⟨lda, ldx, ldy⟩ := loadsWriteRegister j _ v (dataIs_writeByte hmode hj)
  exact ⟨fun hm => (lda hm).imp fun _ ⟨hu, ha, _⟩ => ⟨hu, ha⟩,
    fun hm => (ldx hm).imp fun _ ⟨hu, hx, _⟩ => ⟨hu, hx⟩,
    fun hm => (ldy hm).imp fun _ ⟨hu, hy, _⟩ => ⟨hu, hy⟩⟩

end Sys2Proof.Machine
end

section
/-! # Register transfers (43_register_transfer.md)

A transfer has its effect on the state with PC past the instruction. What every such effect leaves unchanged is said once
for a register written, and once for a value put through setNZ under TRANSFER_NZ_ALL. -/

namespace Sys2Proof.Machine

section

variable {i : Instr} {s w : State} {v : Byte} {r : Part}

/-! ### setNZ under the parameter -/

theorem State.setNZIfTransferAll_of_false (h : s.config.transferNZAll = false) : s.setNZIfTransferAll v = s := by
  simp [State.setNZIfTransferAll, h]

theorem State.setNZIfTransferAll_of_true (h : s.config.transferNZAll = true) :
    s.setNZIfTransferAll v = s.setNZ v := by
  simp [State.setNZIfTransferAll, h]

/-! ### Effects on the state past the instruction -/

/-- R24: what an effect on the state past the instruction leaves, where it changed the part `r` and led to `w`. -/
theorem write_after (hpc : w.pc = (s.advance i.length).pc) (frame : SameExcept [r] (s.advance i.length) w) :
    PCPast i s w ∧ SameExcept [r] s w :=
  ⟨pcPast_of_advance hpc, (sameExcept_writePC _ s).trans frame⟩

/-- D11: without TRANSFER_NZ_ALL the value is not put through setNZ, so no flag is written. -/
theorem transfer_after_of_false (h : s.config.transferNZAll = false)
    (hpc : w.pc = (s.advance i.length).pc) (frame : SameExcept [r] (s.advance i.length) w) :
    PCPast i s (w.setNZIfTransferAll v) ∧ SameExcept [r] s (w.setNZIfTransferAll v) := by
  rw [State.setNZIfTransferAll_of_false (frame.config ▸ h)]
  exact write_after hpc frame

/-- D11: with TRANSFER_NZ_ALL the value is put through setNZ. -/
theorem transfer_after_of_true (h : s.config.transferNZAll = true)
    (hpc : w.pc = (s.advance i.length).pc) (frame : SameExcept [r] (s.advance i.length) w) :
    ShowsNZ v (w.setNZIfTransferAll v) ∧ PCPast i s (w.setNZIfTransferAll v) ∧
      SameExcept [r, .flag .negative, .flag .zero] s (w.setNZIfTransferAll v) := by
  rw [State.setNZIfTransferAll_of_true (frame.config ▸ h)]
  exact setNZ_after hpc frame

end

/-! ### The obligations -/

/-- Settles O28: each transfer writes its register, and puts the value through setNZ only under the parameter. -/
theorem transfersToIndexRegisters : Obligations.TransfersToIndexRegisters := by
  refine fun s => ⟨fun h => ⟨?tax, ?tay, ?tsx⟩, fun h => ⟨?taxNZ, ?tayNZ, ?tsxNZ⟩⟩
  case tax =>
    exact ⟨_, exec_tax rfl s, State.setNZIfTransferAll_x .., transfer_after_of_false h rfl (sameExcept_writeX _ _)⟩
  case tay =>
    exact ⟨_, exec_tay rfl s, State.setNZIfTransferAll_y .., transfer_after_of_false h rfl (sameExcept_writeY _ _)⟩
  case tsx =>
    exact ⟨_, exec_tsx rfl s, State.setNZIfTransferAll_x .., transfer_after_of_false h rfl (sameExcept_writeX _ _)⟩
  case taxNZ =>
    exact ⟨_, exec_tax rfl s, State.setNZIfTransferAll_x .., transfer_after_of_true h rfl (sameExcept_writeX _ _)⟩
  case tayNZ =>
    exact ⟨_, exec_tay rfl s, State.setNZIfTransferAll_y .., transfer_after_of_true h rfl (sameExcept_writeY _ _)⟩
  case tsxNZ =>
    exact ⟨_, exec_tsx rfl s, State.setNZIfTransferAll_x .., transfer_after_of_true h rfl (sameExcept_writeX _ _)⟩

/-- Settles O29: both transfers write A and put the value through setNZ. -/
theorem transfersToAccumulator : Obligations.TransfersToAccumulator := fun s =>
  ⟨⟨_, exec_txa rfl s, rfl, setNZ_after rfl (sameExcept_writeA s.x _)⟩,
    ⟨_, exec_tya rfl s, rfl, setNZ_after rfl (sameExcept_writeA s.y _)⟩⟩

/-- Settles O30: the transfer is one write of SP, which never looks at the parameter. -/
theorem txsSetsStackPointer : Obligations.TxsSetsStackPointer := fun s =>
  ⟨_, exec_txs rfl s, rfl, write_after rfl (sameExcept_writeSP s.x _)⟩

end Sys2Proof.Machine
end

section
/-! # Logical OR and increments (44_logical_increment.md)

ORA, INX and INY write a register and put its new value through setNZ, so `setNZ_after` says all but the value; INC does
the same with a byte of memory. -/

namespace Sys2Proof.Machine

/-- R42, R86: the flags that setNZ writes are no byte of memory. -/
theorem writesOnly_setNZ {ea : Word} {v w : Byte} {s t : State} (h : WritesOnly ea w s t) :
    WritesOnly ea w s (t.setNZ v) :=
  h

/-! ### The obligations -/

/-- Settles O31: A is written with the OR, whose bits are the ORs of the bits, and put through setNZ. -/
theorem oraOrsIntoAccumulator : Obligations.OraOrsIntoAccumulator := by
  intro i s m hm h
  have run : exec i s = .next (orA m (s.advance i.length)) :=
    (exec_ora hm s).trans (withData_ok (operandData_of_dataIs h))
  exact ⟨_, run, fun _ => BitVec.getLsbD_or, setNZ_after rfl (sameExcept_writeA _ _)⟩

/-- Settles O32: the byte at the resolved address is written with the sum, which goes through setNZ. -/
theorem incIncrementsByte : Obligations.IncIncrementsByte := by
  intro i s ea hm hr
  have run : exec i s = .next (incrementByte ea (s.advance i.length)) := (exec_inc hm s).trans (withAddress_ok hr)
  have written : WritesOnly ea (s.readByte ea + 1) s (incrementByte ea (s.advance i.length)) :=
    writesOnly_setNZ (writesOnly_writeByte ea _ (s.advance i.length))
  refine ⟨_, run, ?_⟩
  rw [written.1]
  exact ⟨BitVec.toNat_add _ 1, written, setNZ_after rfl (sameExcept_writeByte ea _ _)⟩

/-- Settles O33: both instructions write their register with the sum and put it through setNZ. -/
theorem inxInyIncrement : Obligations.InxInyIncrement := fun s =>
  ⟨⟨_, exec_inx rfl s, BitVec.toNat_add s.x 1, setNZ_after rfl (sameExcept_writeX _ _)⟩,
    ⟨_, exec_iny rfl s, BitVec.toNat_add s.y 1, setNZ_after rfl (sameExcept_writeY _ _)⟩⟩

end Sys2Proof.Machine
end

section
/-! # The stack (45_stack.md)

A push and a pull have their effect on the state with PC past the instruction. What both pushes change and leave is said
once (`push_after`), and so is what a pull finds after a push (`stackTop_popSP_push`). -/

namespace Sys2Proof.Machine

/-! ### Pushes -/

/-- R25, D28: decrementing SP adds 255 modulo 256. -/
theorem toNat_sub_one (b : Byte) : (b - 1).toNat = (b.toNat + 255) % 256 := by
  rw [BitVec.toNat_sub, Nat.add_comm]
  rfl

/-- R42: moving SP writes no byte of memory. -/
theorem writesOnly_push (v : Byte) (s : State) : WritesOnly (s.stackAddr s.sp) v s (s.push v) :=
  writesOnly_writeByte (s.stackAddr s.sp) v s

/-- R24, R160, R161: what a push on the state past the instruction moves and leaves, its byte apart. -/
theorem push_after {i : Instr} {s : State} (v : Byte) :
    ((s.advance i.length).push v).sp.toNat = (s.sp.toNat + 255) % 256 ∧
      PCPast i s ((s.advance i.length).push v) ∧ SameExcept [.mem, .sp] s ((s.advance i.length).push v) :=
  ⟨toNat_sub_one s.sp, pcPast_of_advance rfl, (sameExcept_writePC _ s).trans (sameExcept_push v _)⟩

/-! ### Pulls -/

/-- R162: PLA writes SP and A and puts the value through setNZ. -/
theorem sameExcept_pullA (s : State) : SameExcept [.a, .sp, .flag .negative, .flag .zero] s (pullA s) :=
  (((sameExcept_writeSP (s.sp + 1) s).trans (sameExcept_writeA s.popSP.stackTop _)).trans
    (sameExcept_setNZ _ _)).mono (by simp)

/-- R162, R163: the increment of a pull undoes a push's decrement, so the pull finds the byte pushed, wherever PC moved
in between. -/
theorem stackTop_popSP_push (v : Byte) (n : Nat) (s : State) : ((s.push v).advance n).popSP.stackTop = v :=
  calc ((s.push v).advance n).popSP.stackTop
      = (s.push v).readByte (s.stackAddr (s.sp - 1 + 1)) := rfl
    _ = (s.push v).readByte (s.stackAddr s.sp) := by rw [BitVec.sub_add_cancel]
    _ = v := readByte_push v s

/-- R28: bit 5 of P as read is 1 already. -/
theorem readP_or_alwaysOneMask (s : State) : s.readP ||| alwaysOneMask = s.readP := by
  rw [State.readP, BitVec.or_assoc, BitVec.or_self]

/-! ### The obligations -/

/-- Settles O34: both instructions are one push on the state past the instruction. -/
theorem pushesStoreBelowBase : Obligations.PushesStoreBelowBase := fun s =>
  ⟨⟨_, exec_pha rfl s, writesOnly_push s.a (s.advance 1), push_after (i := .pha) s.a⟩,
    ⟨_, exec_php rfl s, writesOnly_push s.readP (s.advance 1), State.readP_bit5 s, push_after (i := .php) s.readP⟩⟩

/-- Settles O35: A is written from the slot of the new SP and put through setNZ. -/
theorem plaPullsAccumulator : Obligations.PlaPullsAccumulator := fun s =>
  ⟨_, exec_pla rfl s, BitVec.toNat_add s.sp 1, rfl, showsNZ_setNZ _ _, pcPast_of_advance rfl,
    (sameExcept_writePC _ s).trans (sameExcept_pullA (s.advance 1))⟩

/-- Settles O36: P is written from the slot of the new SP, so every flag but the unused one is its bit. -/
theorem plpPullsFlags : Obligations.PlpPullsFlags := fun s =>
  ⟨_, exec_plp rfl s, BitVec.toNat_add s.sp 1, fun f hf => (State.flag_writeP _ _ f).trans (if_neg hf),
    State.flag_unused _, pcPast_of_advance rfl, rfl, rfl, rfl, rfl, rfl, rfl⟩

/-- Settles O38: the pull finds the byte pushed, and P as read has bit 5 at 1 already. -/
theorem pushThenPullRestores : Obligations.PushThenPullRestores := by
  intro s
  have sp_restored : s.sp - 1 + 1 = s.sp := BitVec.sub_add_cancel s.sp 1
  have p_restored : (pullP ((pushP (s.advance 1)).advance 1)).readP = s.readP := by
    rw [pullP, State.readP_writeP, pushP, stackTop_popSP_push]
    exact readP_or_alwaysOneMask s
  exact ⟨⟨_, _, exec_pha rfl s, exec_pla rfl _, stackTop_popSP_push s.a 1 (s.advance 1), sp_restored, rfl, rfl⟩,
    ⟨_, _, exec_php rfl s, exec_plp rfl _, p_restored, sp_restored, rfl, rfl, rfl⟩⟩

end Sys2Proof.Machine
end

section
/-! # Jumps, clear-flag instructions and halt (46_control_and_flags.md)

A jump writes PC alone; a clear-flag instruction and BRK have their effect on the state with PC past the instruction.
What clearing a flag shows and leaves is said once for every flag but the unused one, which reads 1 (R28). -/

namespace Sys2Proof.Machine

/-- R8: a flag forced to 0 reads 0, the unused flag apart. -/
theorem State.flag_clearFlag_same {f : Flag} (hf : f ≠ .unused) (s : State) : (s.clearFlag f).flag f = false := by
  rw [State.clearFlag, State.flag_setFlag, if_neg hf, if_pos rfl]

/-- R24, R172 to R175: what a flag cleared in the state past the instruction shows and leaves. -/
theorem clearFlag_after (i : Instr) (s : State) {f : Flag} (hf : f ≠ .unused) :
    ((s.advance i.length).clearFlag f).flag f = false ∧ PCPast i s ((s.advance i.length).clearFlag f) ∧
      SameExcept [.flag f] s ((s.advance i.length).clearFlag f) :=
  ⟨State.flag_clearFlag_same hf _, write_after rfl (sameExcept_setFlag f false _)⟩

/-! ### The obligations -/

/-- Settles O39: the jump overwrites the PC past the instruction, so it is one write of PC. -/
theorem jmpSetsProgramCounter : Obligations.JmpSetsProgramCounter :=
  fun _ s ea hm hr => ⟨s.writePC ea, (exec_jmp hm s).trans (withAddress_ok hr), rfl, sameExcept_writePC ea s⟩

/-- Settles O40: each instruction clears its one flag, which is not the unused one. -/
theorem clearInstructionsClearOneFlag : Obligations.ClearInstructionsClearOneFlag := fun s =>
  ⟨⟨_, exec_clc rfl s, clearFlag_after .clc s nofun⟩, ⟨_, exec_cld rfl s, clearFlag_after .cld s nofun⟩,
    ⟨_, exec_cli rfl s, clearFlag_after .cli s nofun⟩, ⟨_, exec_clv rfl s, clearFlag_after .clv s nofun⟩⟩

/-- Settles O41: BRK is one write of the status. -/
theorem brkHaltsEngine : Obligations.BrkHaltsEngine := fun s =>
  ⟨_, exec_brk rfl s, rfl, write_after rfl (sameExcept_halt _)⟩

end Sys2Proof.Machine
end

section
/-! # Errors of a step (60_exceptions.md)

A step of a Running engine ends in an error exactly when decode or the resolver raises it (`Raises`), and its outcome is
then the error outcome. Of the two, decode alone raises UnknownOpcode and the resolver alone AddressOutOfRange. -/

namespace Sys2Proof.Machine

/-! ### What raises an error, and its outcome -/

/-- R205: an error that is raised ends the step in its error outcome. -/
theorem step_of_raises {s : State} {e : EngineError} (hr : s.status = .running) (h : Raises s e) :
    step s = .next (errorOutcome e s) := by
  obtain ⟨hl, rfl⟩ | ⟨i, hf, he⟩ := h
  · exact step_of_absent hr hl
  · exact (step_of_fetches hr hf).trans (exec_of_resolve_error he)

/-- R200: a step ends in no error but one that is raised in it. -/
theorem raises_of_status_error {s t : State} {e : EngineError} (hr : s.status = .running) (hst : step s = .next t)
    (he : t.status = .error e) : Raises s e := by
  obtain ⟨-, -, error_iff⟩ := statusMovesOnlyAsStated s t hr hst
  exact (error_iff e).mp he

/-- R201, R202: the resolver raises no UnknownOpcode. -/
theorem resolve_ne_unknownOpcode (o : Operand) (s : State) (opcode : Byte) :
    resolve o s ≠ .error (.unknownOpcode opcode) := by
  intro h
  obtain ⟨n, hn, -⟩ := resolve_error_shape o s _ h
  exact EngineError.noConfusion hn

/-- R80, R176: a mnemonic's effect brings about no error. -/
theorem status_of_perform_error {m : Mnemonic} {ea : Word} {v : Byte} {s : State} {e : EngineError}
    (h : (perform m ea v s).status = .error e) : s.status = .error e := by
  by_cases hm : m = .brk
  · subst hm; exact Status.noConfusion h
  · exact (perform_status hm ea v s).symm.trans h

/-! ### The mnemonics of the modes that raise -/

theorem absoluteX_mem_modes {m : Mnemonic} : .absoluteX ∈ m.modes ↔ m ∈ [.lda, .ldy, .sta, .ora, .inc] := by
  cases m <;> decide

theorem absoluteY_mem_modes {m : Mnemonic} : .absoluteY ∈ m.modes ↔ m ∈ [.lda, .ldx, .sta, .ora] := by
  cases m <;> decide

theorem indirectY_mem_modes {m : Mnemonic} : .indirectY ∈ m.modes ↔ m ∈ [.lda, .sta, .ora] := by
  cases m <;> decide

/-- R66: an instruction with the operand `o` has a mnemonic that admits the mode of `o`. -/
theorem mode_mem_modes_of_operand {i : Instr} {o : Operand} (h : i.operand = o) : o.mode ∈ i.mnemonic.modes :=
  h ▸ mode_mem_modes i

/-! ### The obligations -/

/-- Settles O42: the outcome of an instruction whose operand raises. -/
theorem resolverErrorStopsEngine : Obligations.ResolverErrorStopsEngine :=
  fun _ _ _ h => exec_of_resolve_error h

/-- Settles O47: the error was raised in the step, so the step answers its error outcome. -/
theorem errorsAreAtomic : Obligations.ErrorsAreAtomic := by
  intro s t e hr hst he
  have outcome := step_of_raises hr (raises_of_status_error hr hst he)
  exact Host.Outcome.next.inj (hst.symm.trans outcome)

/-- Settles O15: an absent opcode is raised by decode; an instruction's own errors are the resolver's, none of which is
UnknownOpcode. -/
theorem unknownOpcodeStopsEngine : Obligations.UnknownOpcodeStopsEngine := by
  refine ⟨fun s hr hl => ⟨State.fetchBytes_absent hl, step_of_absent hr hl⟩, fun i s t opcode hx => ?_⟩
  refine exec_next (Q := fun t => t.status = .error (.unknownOpcode opcode) → s.status = .error (.unknownOpcode opcode))
    hx (fun e he herr => ?_) fun _ _ => status_of_perform_error
  obtain rfl : e = .unknownOpcode opcode := Status.error.inj herr
  exact absurd he (resolve_ne_unknownOpcode _ s opcode)

/-- Settles O48: the error was raised by the resolver, whose four failing forms give the address, and the table gives
each form's mnemonics. -/
theorem outOfRangeOnlyFromListedForms : Obligations.OutOfRangeOnlyFromListedForms := by
  intro s t n hr hst herr
  obtain ⟨-, hdec⟩ | ⟨i, hf, hres⟩ := raises_of_status_error hr hst herr
  · exact EngineError.noConfusion hdec
  obtain ⟨low, high⟩ := legal_of_resolve_error hres
  refine ⟨low, high, i, hf, ?_⟩
  obtain ⟨n', hn, hshape, -⟩ := resolve_error_shape _ _ _ hres
  obtain rfl : n = n' := EngineError.addressOutOfRange.inj hn
  obtain ⟨base, ho, hsum⟩ | ⟨base, ho, hsum⟩ | ⟨z, ho, hsum⟩ | ⟨ho, hlast⟩ := hshape
  · exact .inl ⟨absoluteX_mem_modes.mp (mode_mem_modes_of_operand ho), base, ho, hsum⟩
  · exact .inr (.inl ⟨absoluteY_mem_modes.mp (mode_mem_modes_of_operand ho), base, ho, hsum⟩)
  · exact .inr (.inr (.inl ⟨indirectY_mem_modes.mp (mode_mem_modes_of_operand ho), z, ho, hsum⟩))
  · exact .inr (.inr (.inr ⟨indirect_mem_modes.mp (mode_mem_modes_of_operand ho), ho, hlast⟩))

end Sys2Proof.Machine
end

section
/-! # Loading a program image (70_reset_and_hazards.md)

`load` stores the image one byte at a time, the address counted up modulo 0x10000. While the image ends at 0xFFFF or
below, the count wraps at most behind its last byte, so each byte has an address of its own. -/

namespace Sys2Proof.Machine

/-! ### Bytes stored one after the other -/

theorem State.storeBytes_eq_setMem (bytes : List Byte) (addr : Word) (s : State) :
    State.storeBytes bytes addr s = { s with mem := (State.storeBytes bytes addr s).mem } := by
  induction bytes generalizing addr s with
  | nil => rfl
  | cons b rest ih => exact ih (addr + 1) (s.writeByte addr b)

theorem State.read_storeBytes_outside {bytes : List Byte} {addr : Word} {other : Nat} (s : State)
    (hfit : addr.toNat + bytes.length ≤ 0x10000)
    (hout : other < addr.toNat ∨ addr.toNat + bytes.length ≤ other) :
    Memory.read (State.storeBytes bytes addr s).mem other = Memory.read s.mem other := by
  induction bytes generalizing addr s with
  | nil => rfl
  | cons b rest ih =>
    have next : (addr + 1).toNat = (addr.toNat + 1) % 65536 := BitVec.toNat_add addr 1
    rw [List.length_cons] at hfit hout
    calc Memory.read (State.storeBytes rest (addr + 1) (s.writeByte addr b)).mem other
        = Memory.read (s.writeByte addr b).mem other := ih _ (by omega) (by omega)
      _ = Memory.read s.mem other := Memory.read_write_other s.mem b (by omega)

/-- The first byte is left alone by the stores after it, and each later byte stands where the rest's stores put it. -/
theorem State.read_storeBytes_getElem {bytes : List Byte} {addr : Word} (s : State)
    (hfit : addr.toNat + bytes.length ≤ 0x10000) (k : Nat) (hk : k < bytes.length) :
    Memory.read (State.storeBytes bytes addr s).mem (addr.toNat + k) = bytes[k] := by
  induction bytes generalizing addr s k with
  | nil => exact absurd hk k.not_lt_zero
  | cons b rest ih =>
    have next : (addr + 1).toNat = (addr.toNat + 1) % 65536 := BitVec.toNat_add addr 1
    rw [List.length_cons] at hfit hk
    cases k with
    | zero =>
      calc Memory.read (State.storeBytes rest (addr + 1) (s.writeByte addr b)).mem addr.toNat
          = Memory.read (s.writeByte addr b).mem addr.toNat :=
            State.read_storeBytes_outside _ (by omega) (by omega)
        _ = b := Memory.read_write_same s.mem addr.toNat b
    | succ k =>
      have place : addr.toNat + (k + 1) = (addr + 1).toNat + k := by omega
      rw [place]
      exact ih _ (by omega) k (by omega)

/-! ### The two outcomes of load -/

theorem State.load_of_gt {bytes : List Byte} {s : State} (h : s.config.loadAddr.toNat + bytes.length > 0x10000) :
    s.load bytes = .error (.loadOverflow s.config.loadAddr bytes.length) :=
  if_pos h

theorem State.load_of_le {bytes : List Byte} {s : State} (h : s.config.loadAddr.toNat + bytes.length ≤ 0x10000) :
    s.load bytes = .ok (State.storeBytes bytes s.config.loadAddr s) :=
  if_neg (Nat.not_lt.mpr h)

/-- Settles O54: an image that fits is stored byte by byte from LOAD_ADDR. -/
theorem loadInstallsImage : Obligations.LoadInstallsImage :=
  fun bytes s => ⟨State.load_of_gt, fun hfit =>
    ⟨_, State.load_of_le hfit, State.storeBytes_eq_setMem bytes s.config.loadAddr s,
      State.read_storeBytes_getElem s hfit, fun _ => State.read_storeBytes_outside s hfit⟩⟩

end Sys2Proof.Machine
end
